-- ==== Sys2Proof/Word.lean ====
section
/-! DEFINITION. The word types of the core (00_scope.md R7, R8): every value is an unsigned bit vector of a fixed width. -/

namespace Sys2Proof

/-- A nibble: a register index, a key number or a row count (R12, R14). -/
abbrev Nibble := BitVec 4

/-- A byte: a general register, a timer, a memory cell or the immediate `nn` (R14, R20, R36). -/
abbrev Byte := BitVec 8

/-- The 12-bit immediate address `nnn` (R52). -/
abbrev Addr := BitVec 12

/-- A 16-bit word: an opcode, `I`, `pc` or a call-stack entry (R17, R18, R19, R51). -/
abbrev Word := BitVec 16

end Sys2Proof
end

