-- ==== Sys2Proof/Syntax.lean ====
section
/-! DEFINITION. The instructions: one constructor per row of spec/opcode_table.json (30_encoding.md R54, R57, R59), and
the name the table gives each row. -/

namespace Sys2Proof

/-- An instruction of the core. `x` and `y` are register indices, `n` a row count, `nn` an immediate byte, `nnn` an
immediate address (R52). -/
inductive Instr where
  /-- `00E0`, R96. -/
  | cls
  /-- `00EE`, R69. -/
  | ret
  /-- `1nnn`, R70. -/
  | jp (nnn : Addr)
  /-- `2nnn`, R71. -/
  | call (nnn : Addr)
  /-- `3xnn`, R73. -/
  | seImm (x : Nibble) (nn : Byte)
  /-- `4xnn`, R74. -/
  | sneImm (x : Nibble) (nn : Byte)
  /-- `5xy0`, R75. -/
  | seReg (x y : Nibble)
  /-- `6xnn`, R77. -/
  | ldImm (x : Nibble) (nn : Byte)
  /-- `7xnn`, R78. -/
  | addImm (x : Nibble) (nn : Byte)
  /-- `8xy0`, R79. -/
  | ldReg (x y : Nibble)
  /-- `8xy1`, R80. -/
  | orReg (x y : Nibble)
  /-- `8xy2`, R81. -/
  | andReg (x y : Nibble)
  /-- `8xy3`, R82. -/
  | xorReg (x y : Nibble)
  /-- `8xy4`, R83. -/
  | addReg (x y : Nibble)
  /-- `8xy5`, R84. -/
  | sub (x y : Nibble)
  /-- `8xy6`, R86. -/
  | shr (x y : Nibble)
  /-- `8xy7`, R85. -/
  | subn (x y : Nibble)
  /-- `8xyE`, R87. -/
  | shl (x y : Nibble)
  /-- `9xy0`, R76. -/
  | sneReg (x y : Nibble)
  /-- `Annn`, R90. -/
  | ldI (nnn : Addr)
  /-- `Bnnn`, R72. -/
  | jpV0 (nnn : Addr)
  /-- `Cxnn`, R88. -/
  | rnd (x : Nibble) (nn : Byte)
  /-- `Dxyn`, R97. -/
  | drw (x y n : Nibble)
  /-- `Ex9E`, R98. -/
  | skp (x : Nibble)
  /-- `ExA1`, R99. -/
  | sknp (x : Nibble)
  /-- `Fx07`, R100. -/
  | ldVxDt (x : Nibble)
  /-- `Fx0A`, R103. -/
  | ldVxK (x : Nibble)
  /-- `Fx15`, R101. -/
  | ldDtVx (x : Nibble)
  /-- `Fx18`, R102. -/
  | ldStVx (x : Nibble)
  /-- `Fx1E`, R91. -/
  | addI (x : Nibble)
  /-- `Fx29`, R92. -/
  | ldF (x : Nibble)
  /-- `Fx33`, R93. -/
  | ldB (x : Nibble)
  /-- `Fx55`, R94. -/
  | ldStore (x : Nibble)
  /-- `Fx65`, R95. -/
  | ldLoad (x : Nibble)
  /-- Any other opcode, R57 and R66; `op` is the opcode itself. -/
  | invalid (op : Word)
  deriving DecidableEq, Repr

/-- The `mnemonic` of the instruction's row in spec/opcode_table.json (R59). -/
def Instr.mnemonic : Instr → String
  | .cls => "CLS"
  | .ret => "RET"
  | .jp _ => "JP"
  | .call _ => "CALL"
  | .seImm _ _ => "SE.imm"
  | .sneImm _ _ => "SNE.imm"
  | .seReg _ _ => "SE.reg"
  | .ldImm _ _ => "LD.imm"
  | .addImm _ _ => "ADD.imm"
  | .ldReg _ _ => "LD.reg"
  | .orReg _ _ => "OR"
  | .andReg _ _ => "AND"
  | .xorReg _ _ => "XOR"
  | .addReg _ _ => "ADD.reg"
  | .sub _ _ => "SUB"
  | .shr _ _ => "SHR"
  | .subn _ _ => "SUBN"
  | .shl _ _ => "SHL"
  | .sneReg _ _ => "SNE.reg"
  | .ldI _ => "LD.I"
  | .jpV0 _ => "JP.V0"
  | .rnd _ _ => "RND"
  | .drw _ _ _ => "DRW"
  | .skp _ => "SKP"
  | .sknp _ => "SKNP"
  | .ldVxDt _ => "LD.Vx_DT"
  | .ldVxK _ => "LD.Vx_K"
  | .ldDtVx _ => "LD.DT_Vx"
  | .ldStVx _ => "LD.ST_Vx"
  | .addI _ => "ADD.I"
  | .ldF _ => "LD.F"
  | .ldB _ => "LD.B"
  | .ldStore _ => "LD.store"
  | .ldLoad _ => "LD.load"
  | .invalid _ => "INVALID"

end Sys2Proof
end

