-- ==== Sys2Proof/WellFormed.lean ====
section
/-! DEFINITION. The opcode map of 30_encoding.md R54 as a table of masks and matches, and when a term of `Instr` is an
instruction: operands are in range by their types (R14), so the one check left is that an `invalid` opcode lies in the
invalid space of R57. -/

namespace Sys2Proof

/-- A row of the opcode map (R54): an opcode `op` is the row's when `op AND mask = bits`. -/
structure OpcodeRow where
  mnemonic : String
  mask : Word
  bits : Word
  deriving DecidableEq, Repr

/-- R54: does the row select the opcode? -/
def OpcodeRow.selects (row : OpcodeRow) (op : Word) : Bool := op &&& row.mask == row.bits

/-- The 34 rows of R54, in the table's order. -/
def opcodeMap : List OpcodeRow :=
  [⟨"CLS", 0xFFFF, 0x00E0⟩, ⟨"RET", 0xFFFF, 0x00EE⟩, ⟨"JP", 0xF000, 0x1000⟩, ⟨"CALL", 0xF000, 0x2000⟩] ++
  [⟨"SE.imm", 0xF000, 0x3000⟩, ⟨"SNE.imm", 0xF000, 0x4000⟩, ⟨"SE.reg", 0xF00F, 0x5000⟩, ⟨"LD.imm", 0xF000, 0x6000⟩] ++
  [⟨"ADD.imm", 0xF000, 0x7000⟩, ⟨"LD.reg", 0xF00F, 0x8000⟩, ⟨"OR", 0xF00F, 0x8001⟩, ⟨"AND", 0xF00F, 0x8002⟩] ++
  [⟨"XOR", 0xF00F, 0x8003⟩, ⟨"ADD.reg", 0xF00F, 0x8004⟩, ⟨"SUB", 0xF00F, 0x8005⟩, ⟨"SHR", 0xF00F, 0x8006⟩] ++
  [⟨"SUBN", 0xF00F, 0x8007⟩, ⟨"SHL", 0xF00F, 0x800E⟩, ⟨"SNE.reg", 0xF00F, 0x9000⟩, ⟨"LD.I", 0xF000, 0xA000⟩] ++
  [⟨"JP.V0", 0xF000, 0xB000⟩, ⟨"RND", 0xF000, 0xC000⟩, ⟨"DRW", 0xF000, 0xD000⟩, ⟨"SKP", 0xF0FF, 0xE09E⟩] ++
  [⟨"SKNP", 0xF0FF, 0xE0A1⟩, ⟨"LD.Vx_DT", 0xF0FF, 0xF007⟩, ⟨"LD.Vx_K", 0xF0FF, 0xF00A⟩, ⟨"LD.DT_Vx", 0xF0FF, 0xF015⟩] ++
  [⟨"LD.ST_Vx", 0xF0FF, 0xF018⟩, ⟨"ADD.I", 0xF0FF, 0xF01E⟩, ⟨"LD.F", 0xF0FF, 0xF029⟩, ⟨"LD.B", 0xF0FF, 0xF033⟩] ++
  [⟨"LD.store", 0xF0FF, 0xF055⟩, ⟨"LD.load", 0xF0FF, 0xF065⟩]

/-- The invalid space of R57: the complement of R54. -/
def inInvalidSpace (op : Word) : Bool := opcodeMap.all fun row => !row.selects op

/-- An instruction is well formed when its operands are those of an opcode of its row. Register indices, counts and
immediates are in range by their types; an `invalid` opcode must match no row (R57). -/
def Instr.wellFormed : Instr → Bool
  | .invalid op => inInvalidSpace op
  | .cls | .ret | .jp _ | .call _ | .seImm _ _ | .sneImm _ _ | .seReg _ _ | .ldImm _ _ | .addImm _ _ | .ldReg _ _
  | .orReg _ _ | .andReg _ _ | .xorReg _ _ | .addReg _ _ | .sub _ _ | .shr _ _ | .subn _ _ | .shl _ _ | .sneReg _ _
  | .ldI _ | .jpV0 _ | .rnd _ _ | .drw _ _ _ | .skp _ | .sknp _ | .ldVxDt _ | .ldVxK _ | .ldDtVx _ | .ldStVx _
  | .addI _ | .ldF _ | .ldB _ | .ldStore _ | .ldLoad _ => true

end Sys2Proof
end

