-- ==== Sys2Proof/Decode.lean ====
section
/-! DEFINITION. The InstructionDecoder (30_encoding.md R51 to R57): fields, `decode` written from R55, the decoder of a byte
list, and the encoder written from the layouts of R53 and the matches of R54. -/

namespace Sys2Proof

/-- Every field of an opcode, computed whether or not the instruction uses it (R52). -/
structure Fields where
  d1 : Nibble
  x : Nibble
  y : Nibble
  n : Nibble
  nn : Byte
  nnn : Addr
  deriving DecidableEq, Repr

/-- The fields of an opcode (R52): d1 `op[15:12]`, x `op[11:8]`, y `op[7:4]`, n `op[3:0]`, nn `op[7:0]`, nnn `op[11:0]`. -/
def fields (op : Word) : Fields where
  d1 := op.extractLsb' 12 4
  x := op.extractLsb' 8 4
  y := op.extractLsb' 4 4
  n := op.extractLsb' 0 4
  nn := op.extractLsb' 0 8
  nnn := op.extractLsb' 0 12

/-- Group 0 of R55: only `00E0` and `00EE`, all 16 bits fixed (R56). -/
def decodeGroup0 (op : Word) : Instr :=
  if op = 0x00E0 then .cls
  else if op = 0x00EE then .ret
  else .invalid op

/-- Group 8 of R55, keyed on d4. -/
def decodeGroup8 (op : Word) (f : Fields) : Instr :=
  if f.n = 0x0 then .ldReg f.x f.y
  else if f.n = 0x1 then .orReg f.x f.y
  else if f.n = 0x2 then .andReg f.x f.y
  else if f.n = 0x3 then .xorReg f.x f.y
  else if f.n = 0x4 then .addReg f.x f.y
  else if f.n = 0x5 then .sub f.x f.y
  else if f.n = 0x6 then .shr f.x f.y
  else if f.n = 0x7 then .subn f.x f.y
  else if f.n = 0xE then .shl f.x f.y
  else .invalid op

/-- Group E of R55, keyed on the whole low byte. -/
def decodeGroupE (op : Word) (f : Fields) : Instr :=
  if f.nn = 0x9E then .skp f.x
  else if f.nn = 0xA1 then .sknp f.x
  else .invalid op

/-- Group F of R55, keyed on the whole low byte. -/
def decodeGroupF (op : Word) (f : Fields) : Instr :=
  if f.nn = 0x07 then .ldVxDt f.x
  else if f.nn = 0x0A then .ldVxK f.x
  else if f.nn = 0x15 then .ldDtVx f.x
  else if f.nn = 0x18 then .ldStVx f.x
  else if f.nn = 0x1E then .addI f.x
  else if f.nn = 0x29 then .ldF f.x
  else if f.nn = 0x33 then .ldB f.x
  else if f.nn = 0x55 then .ldStore f.x
  else if f.nn = 0x65 then .ldLoad f.x
  else .invalid op

/-- R55: the decoding procedure, total on every opcode. INVALID is a result, not an error (R57). The fixed digits of a
pattern must match (R56, STRICT_FIXED_NIBBLES = true, log 14). -/
def decode (op : Word) : Instr :=
  let f := fields op
  if f.d1 = 0x0 then decodeGroup0 op
  else if f.d1 = 0x1 then .jp f.nnn
  else if f.d1 = 0x2 then .call f.nnn
  else if f.d1 = 0x3 then .seImm f.x f.nn
  else if f.d1 = 0x4 then .sneImm f.x f.nn
  else if f.d1 = 0x5 then (if f.n = 0 then .seReg f.x f.y else .invalid op)
  else if f.d1 = 0x6 then .ldImm f.x f.nn
  else if f.d1 = 0x7 then .addImm f.x f.nn
  else if f.d1 = 0x8 then decodeGroup8 op f
  else if f.d1 = 0x9 then (if f.n = 0 then .sneReg f.x f.y else .invalid op)
  else if f.d1 = 0xA then .ldI f.nnn
  else if f.d1 = 0xB then .jpV0 f.nnn
  else if f.d1 = 0xC then .rnd f.x f.nn
  else if f.d1 = 0xD then .drw f.x f.y f.n
  else if f.d1 = 0xE then decodeGroupE op f
  else decodeGroupF op f

/-- The opcode of two bytes, the first one in bits 15:8 (R40, R51). -/
def opcodeOfBytes (hi lo : Byte) : Word := hi ++ lo

/-- Why a list of bytes holds no instruction: it is shorter than the one instruction length, two bytes (R51). -/
inductive DecodeError where
  | truncated
  deriving DecidableEq, Repr

/-- Reads one instruction from the front of a byte list and returns it with the bytes after it (R51, R60). -/
def decodeBytes : List Byte → Except DecodeError (Instr × List Byte)
  | hi :: lo :: rest => .ok (decode (opcodeOfBytes hi lo), rest)
  | _ => .error .truncated

/-- Layout `NNN` of R53. -/
def encodeNNN (d1 : Nibble) (nnn : Addr) : Word := d1 ++ nnn

/-- Layout `XNN` of R53; the layout `X` is the same with `nn` fixed. -/
def encodeXNN (d1 x : Nibble) (nn : Byte) : Word := d1 ++ x ++ nn

/-- Layout `XYN` of R53; the layout `XY` is the same with `n` fixed. -/
def encodeXYN (d1 x y n : Nibble) : Word := d1 ++ x ++ y ++ n

/-- The opcode of an instruction, from the layouts of R53 and the matches of R54. -/
def encode : Instr → Word
  | .cls => 0x00E0
  | .ret => 0x00EE
  | .jp nnn => encodeNNN 0x1 nnn
  | .call nnn => encodeNNN 0x2 nnn
  | .seImm x nn => encodeXNN 0x3 x nn
  | .sneImm x nn => encodeXNN 0x4 x nn
  | .seReg x y => encodeXYN 0x5 x y 0x0
  | .ldImm x nn => encodeXNN 0x6 x nn
  | .addImm x nn => encodeXNN 0x7 x nn
  | .ldReg x y => encodeXYN 0x8 x y 0x0
  | .orReg x y => encodeXYN 0x8 x y 0x1
  | .andReg x y => encodeXYN 0x8 x y 0x2
  | .xorReg x y => encodeXYN 0x8 x y 0x3
  | .addReg x y => encodeXYN 0x8 x y 0x4
  | .sub x y => encodeXYN 0x8 x y 0x5
  | .shr x y => encodeXYN 0x8 x y 0x6
  | .subn x y => encodeXYN 0x8 x y 0x7
  | .shl x y => encodeXYN 0x8 x y 0xE
  | .sneReg x y => encodeXYN 0x9 x y 0x0
  | .ldI nnn => encodeNNN 0xA nnn
  | .jpV0 nnn => encodeNNN 0xB nnn
  | .rnd x nn => encodeXNN 0xC x nn
  | .drw x y n => encodeXYN 0xD x y n
  | .skp x => encodeXNN 0xE x 0x9E
  | .sknp x => encodeXNN 0xE x 0xA1
  | .ldVxDt x => encodeXNN 0xF x 0x07
  | .ldVxK x => encodeXNN 0xF x 0x0A
  | .ldDtVx x => encodeXNN 0xF x 0x15
  | .ldStVx x => encodeXNN 0xF x 0x18
  | .addI x => encodeXNN 0xF x 0x1E
  | .ldF x => encodeXNN 0xF x 0x29
  | .ldB x => encodeXNN 0xF x 0x33
  | .ldStore x => encodeXNN 0xF x 0x55
  | .ldLoad x => encodeXNN 0xF x 0x65
  | .invalid op => op

/-- The two bytes of an instruction in memory order, high byte first (R40, R60). -/
def encodeBytes (i : Instr) : List Byte := [(encode i).extractLsb' 8 8, (encode i).extractLsb' 0 8]

/-- The opcode of a table word: its first 16 bits, every bit above `nbits` being 0. -/
def tableOpcode (nbits w : Nat) : Word := BitVec.ofNat 16 (w % 2 ^ nbits)

/-- What the decoder reads from an opcode-table word of `nbits` bits: the word is laid out as two bytes, high byte first
(R40), and decoded from them. -/
def decodeTableWord (nbits w : Nat) : Option Instr :=
  let op := tableOpcode nbits w
  match decodeBytes [op.extractLsb' 8 8, op.extractLsb' 0 8] with
  | .ok (i, _) => some i
  | .error _ => none

end Sys2Proof
end

