-- ==== Sys2Proof/Config.lean ====
section
/-! DEFINITION. The parameters of 00_scope.md R6 at their default values, and the two free inputs of 10_state.md R30 as
constants without a body.

The behaviour parameters of R6 are taken at the defaults for which the spec's rules are written: FLAG_LAST (log 10),
I_WIDTH (log 11), LOADSTORE_INCREMENTS_I (log 12), KEY_INDEX (log 13), STRICT_FIXED_NIBBLES (log 14), FIRST_RELEASE_WINS
(log 15), PROTECT_RESERVED (log 16), SPRITE_MSB_LEFT (log 6). -/

namespace Sys2Proof.Config

/-- `MEMSIZE` (R6, R35): addresses 0x000 to 0xFFF. -/
abbrev memSize : Nat := 4096

/-- `STACK_DEPTH` (R6, R19). -/
abbrev stackDepth : Nat := 16

/-- `PROG_BASE` (R6, R127): the load address of a program and the reset value of `pc`. -/
abbrev progBase : Nat := 0x200

/-- `PROG_MAX` (R6, R43): the most bytes a program may have. -/
abbrev progMax : Nat := 3584

/-- `FONT_BASE` and the font's size (R6, R42, R44): 80 bytes from address 0. -/
abbrev fontSize : Nat := 80

/-- Bytes of one glyph (R42): glyph `g` stands at `5 · g`. -/
abbrev glyphSize : Nat := 5

/-- `FONT` (R6, R44), at the default R44 gives. PRESUMED (log 5): the spec itself marks these bytes as taken from general
knowledge. Unsafe where a claim reads the font. -/
def font : List Byte :=
  [0xF0, 0x90, 0x90, 0x90, 0xF0, 0x20, 0x60, 0x20, 0x20, 0x70] ++
  [0xF0, 0x10, 0xF0, 0x80, 0xF0, 0xF0, 0x10, 0xF0, 0x10, 0xF0] ++
  [0x90, 0x90, 0xF0, 0x10, 0x10, 0xF0, 0x80, 0xF0, 0x10, 0xF0] ++
  [0xF0, 0x80, 0xF0, 0x90, 0xF0, 0xF0, 0x10, 0x20, 0x40, 0x40] ++
  [0xF0, 0x90, 0xF0, 0x90, 0xF0, 0xF0, 0x90, 0xF0, 0x10, 0xF0] ++
  [0xF0, 0x90, 0xF0, 0x90, 0x90, 0xE0, 0x90, 0xE0, 0x90, 0xE0] ++
  [0xF0, 0x80, 0x80, 0x80, 0xF0, 0xE0, 0x90, 0x90, 0x90, 0xE0] ++
  [0xF0, 0x80, 0xF0, 0x80, 0xF0, 0xF0, 0x80, 0xF0, 0x80, 0x80]

/-- `RAND` (R30, R88): the byte the n-th executed Cxnn draws. A FREE VALUE (log 3): it has no body, so a claim about it
holds for every sequence of bytes. -/
opaque randomByte : Nat → Byte

/-- `KEYS[k]` (R30, R98, R99): the Keyboard's answer to the n-th query, when that query asks about key `k`. A FREE VALUE
(log 4): it has no body, so a claim about it holds for every answer. -/
opaque keyPressed : Nat → Nibble → Bool

end Sys2Proof.Config
end

