-- ==== Sys2Proof/Machine/State.lean ====
section
/-! DEFINITION. The state of the core (10_state.md R13 to R34) as plain data, the reasons a step can stop, and the state
`Reset` builds. -/

namespace Sys2Proof.Machine

/-- The cause of a halt (R23, R104). -/
inductive Cause where
  | stackOverflow
  | stackUnderflow
  | outOfBoundsMemoryAccess
  deriving DecidableEq, Repr

/-- The halt record (R23). -/
structure HaltRecord where
  /-- what was raised -/
  cause : Cause
  /-- `at`: the address of the instruction that raised it, or the `pc` a failed fetch was attempted at -/
  instrAt : Word
  /-- the opcode being executed, none for a fetch error -/
  opcode : Option Word
  /-- for OutOfBoundsMemoryAccess, the lowest address of the failed access outside [0, 4096); an unbounded number (R38) -/
  addr : Option Nat
  deriving DecidableEq, Repr

/-- The engine mode (R22, R117). -/
inductive Mode where
  | running
  | awaitingKey (x : Nibble)
  | keyResolved (x k : Nibble)
  | halted (rec : HaltRecord)
  deriving DecidableEq, Repr

/-- The events of the trace (R31). -/
inductive Event where
  | clear
  | draw (x y : Byte) (sprite : List Byte) (collision : Bool)
  | keyQuery (k : Nibble) (pressed : Bool)
  | soundStart
  | soundStop
  | halt (rec : HaltRecord)
  deriving DecidableEq, Repr

/-- The operations the host applies to the core (R5, R26). -/
inductive HostOp where
  | reset
  | loadProgram (bytes : List Byte)
  | cycle
  | tick
  | keyRelease (k : Nibble)
  deriving DecidableEq, Repr

/-- How far the session is (R43, R125): just built by `Reset`, a program loaded, or a `Cycle` already applied. -/
inductive Session where
  | built
  | loaded
  | started
  deriving DecidableEq, Repr

/-- Memory `M` (R24, R35): the bytes that differ from the reset contents, at strictly rising addresses. What an unlisted
address reads as is `Memory.unlisted`; the canonical form is `Memory.wf`. -/
abbrev Memory := List Host.Cell

/-- The Display's framebuffer `FB` (R25): 32 rows of 64 pixels, true meaning on. -/
abbrev FrameBuffer := Vector (Vector Bool 64) 32

/-- The state of the core: the tuple of R13, the trace of R31 and the framebuffer of R25, under the spec's own names; then
the session phase R43 implies, and the three fields of the model's own (log 1, log 3, log 4). -/
structure State where
  /-- the general registers V0 to VF (R14) -/
  V : Vector Byte 16
  /-- the index register (R17) -/
  I : Word
  /-- the program counter (R18) -/
  pc : Word
  /-- the call stack's entries (R19) -/
  stack : Vector Word 16
  /-- the number of call-stack entries in use, 0 to 16 (R19) -/
  sp : Fin 17
  /-- the delay timer (R20) -/
  DT : Byte
  /-- the sound timer (R21) -/
  ST : Byte
  /-- the engine mode (R22) -/
  mode : Mode
  /-- the memory (R24) -/
  M : Memory
  /-- the Display's framebuffer (R25, closed model, log 6) -/
  FB : FrameBuffer
  /-- the event trace, oldest first (R31) -/
  trace : List Event
  /-- the phase of the session, which decides whether LoadProgram is admitted (R43, log 9) -/
  session : Session
  /-- the host's operations not yet applied, next first; the model's own field (log 1) -/
  hostOps : List HostOp
  /-- how many bytes RND has drawn; the model's own field, the argument of the free value RAND (log 3) -/
  randDraws : Nat
  /-- how many key queries were made; the model's own field, the argument of the free value KEYS (log 4) -/
  keyReads : Nat
  deriving DecidableEq, Repr

/-- Machine faults. There are none: every error of R104 is a halt whose entry the spec describes (R105), so it is a next
state (log 7). Nobody raises one; safe. -/
inductive Fault where
  deriving DecidableEq, Repr

/-- Why a step has no meaning. -/
inductive Refusal where
  /-- An instruction without a meaning, by its mnemonic. Raised by an arm of `exec` that has no meaning yet; no arm does.
  Safe. -/
  | notModelled (mnemonic : String)
  /-- A `LoadProgram` of `length` bytes, more than 3584: "is refused, has no step" (R43). Raised by the host operation
  LoadProgram only. Safe. -/
  | programTooLong (length : Nat)
  /-- A `LoadProgram` outside the state `Reset` builds: after another LoadProgram or after a Cycle (R43, D19). Raised by the
  host operation LoadProgram only. Safe. -/
  | loadNotAdmitted
  deriving DecidableEq, Repr

/-- A framebuffer with every pixel off (R25, R96). -/
def FrameBuffer.allOff : FrameBuffer := Vector.replicate 32 (Vector.replicate 64 false)

/-- The state `Reset` builds (R33, R126), and the model's own fields at the values logs 1, 3 and 4 name. Memory lists
nothing: an unlisted address reads as its reset contents. -/
def State.reset : State where
  V := Vector.replicate 16 0
  I := 0
  pc := 0x200
  stack := Vector.replicate 16 0
  sp := 0
  DT := 0
  ST := 0
  mode := .running
  M := []
  FB := FrameBuffer.allOff
  trace := []
  session := .built
  hostOps := []
  randDraws := 0
  keyReads := 0

end Sys2Proof.Machine
end

