-- ==== Sys2Proof/Machine/Ops.lean ====
section
/-! DEFINITION. The named operations every meaning is written over: memory (20_memory.md R36 to R39), the register file
(R14), the other registers, the call stack (R19), the event trace (R31), the skip (R67), and entering a halt (R105), which is
the core's only exception. -/

namespace Sys2Proof.Machine

/-- What a meaning or a host operation answers. -/
abbrev Result := Host.Outcome State Fault Refusal

/-! ## Memory -/

/-- What an unlisted address reads as: its contents after `Reset` (R24, R126), FONT at 0x000 to 0x04F and zero elsewhere. -/
def Memory.unlisted (a : Nat) : Byte := Config.font.getD a 0

/-- `MemRead(a, 1)` (R36). The callers check the range first (R38, R39). -/
def Memory.read : Memory → Nat → Byte
  | [], a => Memory.unlisted a
  | (b, v) :: rest, a => if b = a then v else Memory.read rest a

/-- `M[a] <- v` on the canonical list: a byte equal to the reset contents of its address is not listed. -/
def Memory.put : Memory → Nat → Byte → Memory
  | [], a, v => if v = Memory.unlisted a then [] else [(a, v)]
  | (b, w) :: rest, a, v =>
    if a < b then (if v = Memory.unlisted a then (b, w) :: rest else (a, v) :: (b, w) :: rest)
    else if a = b then (if v = Memory.unlisted a then rest else (a, v) :: rest)
    else (b, w) :: Memory.put rest a v

/-- `MemWrite(a, 1, v)` (R37), defined for `a < 4096`; there is no address from 4096 up (R35), so nothing is written there
(log 18). No instruction gets there: the range is checked before the first write (R39). -/
def Memory.write (m : Memory) (a : Nat) (v : Byte) : Memory := if a < Config.memSize then m.put a v else m

/-- Writes a list of bytes at ascending addresses from `a` (R41, R43, R46). -/
def Memory.writeList (m : Memory) (a : Nat) : List Byte → Memory
  | [] => m
  | v :: rest => Memory.writeList (m.write a v) (a + 1) rest

/-- Reads `n` bytes at ascending addresses from `a` (R46). -/
def Memory.readList (m : Memory) (a : Nat) : Nat → List Byte
  | 0 => []
  | n + 1 => m.read a :: Memory.readList m (a + 1) n

/-- The canonical form of memory: addresses strictly rising and below 4096, and no byte listed that equals the reset contents
of its address. -/
abbrev Memory.wf (m : Memory) : Prop :=
  m.Pairwise (fun p q => p.1 < q.1) ∧ ∀ c ∈ m, c.1 < Config.memSize ∧ c.2 ≠ Memory.unlisted c.1

/-- `CheckRange(a, n)` (R38): none when every address of `a .. a+n-1` is below 4096 (always, with `n = 0`), otherwise the lowest
address of the range outside memory. Addresses are unbounded numbers, so nothing wraps (D8, log 17). -/
def checkRange (a n : Nat) : Option Nat :=
  if n = 0 ∨ a + n ≤ Config.memSize then none else some (max a Config.memSize)

/-! ## Registers -/

/-- Register VF, the flag register (R15). -/
abbrev vf : Nibble := 0xF

/-- `V[x]` (R9, R14). -/
def State.readV (s : State) (x : Nibble) : Byte := s.V[x.toNat]'x.isLt

/-- `V[x] <- v` (R9, R14). -/
def State.writeV (s : State) (x : Nibble) (v : Byte) : State := { s with V := s.V.set x.toNat v x.isLt }

/-- `I <- v` (R17). -/
def State.setI (s : State) (v : Word) : State := { s with I := v }

/-- `pc <- target` (R18). -/
def State.setPc (s : State) (target : Word) : State := { s with pc := target }

/-- `DT <- v` (R20). -/
def State.setDT (s : State) (v : Byte) : State := { s with DT := v }

/-- `ST <- v` (R21). -/
def State.setST (s : State) (v : Byte) : State := { s with ST := v }

/-- `mode <- m` (R22). -/
def State.setMode (s : State) (m : Mode) : State := { s with mode := m }

/-- Memory replaced by `m`. -/
def State.setM (s : State) (m : Memory) : State := { s with M := m }

/-- The framebuffer replaced by `fb` (R25). -/
def State.setFB (s : State) (fb : FrameBuffer) : State := { s with FB := fb }

/-- `emit e`: the event is appended to the trace (R9, R31). -/
def State.emit (s : State) (e : Event) : State := { s with trace := s.trace ++ [e] }

/-- The session phase replaced by `p` (R43, log 9). -/
def State.setSession (s : State) (p : Session) : State := { s with session := p }

/-- The host's operations not yet applied replaced by `ops` (log 1). -/
def State.setHostOps (s : State) (ops : List HostOp) : State := { s with hostOps := ops }

/-- The fetch's advance and the skip: `pc <- pc + 2` (R64, R67). -/
def State.advance (s : State) : State := s.setPc (s.pc + 2)

/-- `if b then skip` (R67). -/
def State.skipIf (s : State) (b : Bool) : State := if b then s.advance else s

/-- A push (R19): `stack[sp] <- v`, then `sp <- sp + 1`; only applied with `sp < 16`. -/
def State.push (s : State) (v : Word) (room : s.sp.val < Config.stackDepth) : State :=
  { s with stack := s.stack.set s.sp.val v room, sp := ⟨s.sp.val + 1, Nat.succ_lt_succ room⟩ }

/-- The entry a pop returns (R19): `stack[sp - 1]`, the top of a stack that is not empty. -/
def State.top (s : State) (used : 0 < s.sp.val) : Word :=
  s.stack[s.sp.val - 1]'(by have := s.sp.isLt; omega)

/-- A pop's `sp <- sp - 1`; the entry is not cleared (R19, D10). -/
def State.dropTop (s : State) : State := { s with sp := ⟨s.sp.val - 1, by have := s.sp.isLt; omega⟩ }

/-! ## Free inputs -/

/-- `draw RAND` leaves the next draw fresh (R30, log 3). -/
def State.countDraw (s : State) : State := { s with randDraws := s.randDraws + 1 }

/-- `read KEYS[k]` leaves the next query fresh (R30, log 4). -/
def State.countKeyRead (s : State) : State := { s with keyReads := s.keyReads + 1 }

/-! ## Derived outputs (R28) -/

/-- `halted` (R28). -/
def State.isHalted (s : State) : Bool := match s.mode with
  | .halted _ => true
  | .running | .awaitingKey _ | .keyResolved _ _ => false

/-- `awaiting_key` (R28). -/
def State.isAwaitingKey (s : State) : Bool := match s.mode with
  | .awaitingKey _ => true
  | .running | .keyResolved _ _ | .halted _ => false

/-- `sound_active` (R28). -/
def State.soundActive (s : State) : Bool := s.ST != 0

/-! ## Taking an exception: the halt -/

/-- `raise E(info)` (R105): `mode <- Halted(rec)` and `emit Halt(rec)`, and nothing else changes. There is no return from
it (R106, R111): only `Reset` leaves Halted. -/
def State.raise (s : State) (rec : HaltRecord) : State := (s.setMode (.halted rec)).emit (.halt rec)

/-- A halt raised by an executing instruction (R65, R105): `at` is `pc - 2`, the instruction's own address, and the opcode
is the instruction's (log 19). -/
def State.raiseFrom (s : State) (i : Instr) (cause : Cause) (addr : Option Nat) : State :=
  s.raise { cause := cause, instrAt := s.pc - 2, opcode := some (encode i), addr := addr }

/-- `CheckRange(I, n)`, then the rest of the instruction (R38, R39): a failed check raises OutOfBoundsMemoryAccess before
anything is read or written. -/
def State.withRange (s : State) (i : Instr) (n : Nat) (rest : State) : State :=
  match checkRange s.I.toNat n with
  | none => rest
  | some addr => s.raiseFrom i .outOfBoundsMemoryAccess (some addr)

/-! ## Fetch -/

/-- The two bytes at `pc` as an opcode, high byte first (R40, R64); none when `pc + 1` lies outside memory. -/
def State.fetchWord (s : State) : Option Word :=
  if s.pc.toNat + 1 < Config.memSize then some (opcodeOfBytes (s.M.read s.pc.toNat) (s.M.read (s.pc.toNat + 1))) else none

/-- The halt of a fetch outside memory (R64): `at` is `pc`, there is no opcode, and `pc` stays. -/
def State.raiseFetch (s : State) : State :=
  s.raise { cause := .outOfBoundsMemoryAccess, instrAt := s.pc, opcode := none, addr := some (max s.pc.toNat Config.memSize) }

end Sys2Proof.Machine
end

