-- ==== Sys2Proof/Machine/Flags.lean ====
section
/-! DEFINITION. Every flag of the core; all of them are written to VF (10_state.md R15, 42_register_alu.md R89). -/

namespace Sys2Proof.Machine

/-- A flag as the byte VF holds: 1 or 0. -/
def flagByte (b : Bool) : Byte := if b then 1 else 0

/-- Carry of 8xy4 (R83): the unbounded sum exceeds 255. -/
def carryOut (a b : Byte) : Bool := decide (255 < a.toNat + b.toNat)

/-- NOT borrow of `a - b`, for 8xy5 and 8xy7 (R84, R85). -/
def noBorrow (a b : Byte) : Bool := decide (b.toNat ≤ a.toNat)

/-- The bit 8xy6 shifts out (R86): bit 0. -/
def lowBit (v : Byte) : Bool := v.getLsbD 0

/-- The bit 8xyE shifts out (R87): bit 7. -/
def highBit (v : Byte) : Bool := v.getLsbD 7

/-- Index overflow of Fx1E (R91): the unbounded sum exceeds 0x0FFF. -/
def indexOverflow (i : Word) (v : Byte) : Bool := decide (0x0FFF < i.toNat + v.toNat)

/-- `V[0xF] <- flag`. -/
def State.writeFlag (s : State) (b : Bool) : State := s.writeV vf (flagByte b)

/-- The result, then the flag: with x = 0xF the flag is what VF holds afterwards (R15, FLAG_LAST = true, D11, log 10). -/
def State.writeResult (s : State) (x : Nibble) (r : Byte) (flag : Bool) : State := (s.writeV x r).writeFlag flag

end Sys2Proof.Machine
end

