-- ==== Sys2Proof/Machine/Alu.lean ====
section
/-! DEFINITION. Register loads and the ALU (42_register_alu.md R77 to R89). Results are reduced modulo 256 by the width of a
byte; operands are read before the instruction's own writes; the flag is written last. -/

namespace Sys2Proof.Machine

/-- R77, `6xnn`. -/
def execLdImm (x : Nibble) (nn : Byte) (s : State) : Result := .next (s.writeV x nn)

/-- R78, `7xnn`: wrapping, and no flag. -/
def execAddImm (x : Nibble) (nn : Byte) (s : State) : Result := .next (s.writeV x (s.readV x + nn))

/-- R79, `8xy0`. -/
def execLdReg (x y : Nibble) (s : State) : Result := .next (s.writeV x (s.readV y))

/-- R80, `8xy1`. -/
def execOr (x y : Nibble) (s : State) : Result := .next (s.writeV x (s.readV x ||| s.readV y))

/-- R81, `8xy2`. -/
def execAnd (x y : Nibble) (s : State) : Result := .next (s.writeV x (s.readV x &&& s.readV y))

/-- R82, `8xy3`. -/
def execXor (x y : Nibble) (s : State) : Result := .next (s.writeV x (s.readV x ^^^ s.readV y))

/-- R83, `8xy4`: VF = carry. -/
def execAddReg (x y : Nibble) (s : State) : Result :=
  .next (s.writeResult x (s.readV x + s.readV y) (carryOut (s.readV x) (s.readV y)))

/-- R84, `8xy5`: VF = NOT borrow of `Vx - Vy`. -/
def execSub (x y : Nibble) (s : State) : Result :=
  .next (s.writeResult x (s.readV x - s.readV y) (noBorrow (s.readV x) (s.readV y)))

/-- R85, `8xy7`: VF = NOT borrow of `Vy - Vx`. -/
def execSubn (x y : Nibble) (s : State) : Result :=
  .next (s.writeResult x (s.readV y - s.readV x) (noBorrow (s.readV y) (s.readV x)))

/-- R86, `8xy6`: the source is Vy; VF = its bit 0. -/
def execShr (x y : Nibble) (s : State) : Result :=
  .next (s.writeResult x (s.readV y >>> 1) (lowBit (s.readV y)))

/-- R87, `8xyE`: the source is Vy; VF = its bit 7. -/
def execShl (x y : Nibble) (s : State) : Result :=
  .next (s.writeResult x (s.readV y <<< 1) (highBit (s.readV y)))

/-- R88 for a drawn byte `r`: `V[x] <- r AND nn`. -/
def randomMasked (r : Byte) (x : Nibble) (nn : Byte) (s : State) : State := s.countDraw.writeV x (r &&& nn)

/-- R88, `Cxnn`: the byte drawn is a free value (R30, D23, log 3). -/
def execRnd (x : Nibble) (nn : Byte) (s : State) : Result :=
  .next (randomMasked (Config.randomByte s.randDraws) x nn s)

end Sys2Proof.Machine
end

