-- ==== Sys2Proof/Machine/Operands.lean ====
section
/-! DEFINITION. The operand forms: how an immediate, a register or the index register becomes the value an instruction
uses (30_encoding.md R52, and the rules of files 41 to 44). -/

namespace Sys2Proof.Machine

/-- `zext_16(nnn)` (R52, R70, R71, R90). -/
def addrWord (nnn : Addr) : Word := nnn.setWidth 16

/-- The target of Bnnn (R72): `zext_16(nnn) + zext_16(V[0])`, at most 0x10FE and never masked (D5, log 17). -/
def offsetTarget (nnn : Addr) (v0 : Byte) : Word := nnn.setWidth 16 + v0.setWidth 16

/-- The sum Fx1E writes to `I` (R91): `(I + V[x]) mod 65536` (I_WIDTH = 16, D7, log 11). -/
def indexSum (i : Word) (v : Byte) : Word := i + v.setWidth 16

/-- The address Fx29 points `I` at (R92): `V[x] * 5`, of the whole byte. -/
def glyphAddress (v : Byte) : Word := v.setWidth 16 * BitVec.ofNat 16 Config.glyphSize

/-- The key Ex9E and ExA1 ask about (R98, R99): the low nibble of Vx (KEY_INDEX, D12, log 13). -/
def keyNumber (v : Byte) : Nibble := v.extractLsb' 0 4

/-- The column Dxyn passes (R97): `V[x] mod 64`. -/
def spriteColumn (v : Byte) : Byte := v % 64

/-- The row Dxyn passes (R97): `V[y] mod 32`. -/
def spriteRow (v : Byte) : Byte := v % 32

/-- The decimal digits Fx33 stores (R93): hundreds, tens, ones. -/
def decimalDigits (v : Byte) : List Byte := [v / 100, v / 10 % 10, v % 10]

/-- How many registers Fx55 and Fx65 transfer (R94, R95): V0 to Vx inclusive. -/
def transferCount (x : Nibble) : Nat := x.toNat + 1

/-- The first `n` registers, V0 first (R94). -/
def State.firstRegs (s : State) (n : Nat) : List Byte := (List.range n).map fun j => s.readV (BitVec.ofNat 4 j)

/-- `for j = 0 to n-1: V[j] <- MemRead(I + j, 1)` (R95). The reads do not depend on the registers written so far. -/
def State.loadRegs (s : State) : Nat → State
  | 0 => s
  | n + 1 => (s.loadRegs n).writeV (BitVec.ofNat 4 n) (s.M.read (s.I.toNat + n))

/-- The sprite of Dxyn (R97): the `n` bytes from `I`. -/
def State.spriteAt (s : State) (n : Nibble) : List Byte := s.M.readList s.I.toNat n.toNat

end Sys2Proof.Machine
end

