-- ==== Sys2Proof/Machine/ControlFlow.lean ====
section
/-! DEFINITION. Control flow (41_control_flow.md R69 to R76) and the opcodes of the invalid space (40_cycle.md R66). On
entry `pc` holds the instruction's address plus 2 (R10). -/

namespace Sys2Proof.Machine

/-- R69, `00EE`: pop the return address into `pc`; StackUnderflow when the stack is empty. -/
def execRet (s : State) : Result :=
  .next (if used : 0 < s.sp.val then s.dropTop.setPc (s.top used) else s.raiseFrom .ret .stackUnderflow none)

/-- R70, `1nnn`. -/
def execJp (nnn : Addr) (s : State) : Result := .next (s.setPc (addrWord nnn))

/-- R71, `2nnn`: push the return address, which `pc` already is; StackOverflow when the stack is full. -/
def execCall (nnn : Addr) (s : State) : Result :=
  .next (if room : s.sp.val < Config.stackDepth then (s.push s.pc room).setPc (addrWord nnn)
    else s.raiseFrom (.call nnn) .stackOverflow none)

/-- R72, `Bnnn`: the offset register is always V0. -/
def execJpV0 (nnn : Addr) (s : State) : Result := .next (s.setPc (offsetTarget nnn (s.readV 0)))

/-- R73, `3xnn`. -/
def execSeImm (x : Nibble) (nn : Byte) (s : State) : Result := .next (s.skipIf (s.readV x == nn))

/-- R74, `4xnn`. -/
def execSneImm (x : Nibble) (nn : Byte) (s : State) : Result := .next (s.skipIf (s.readV x != nn))

/-- R75, `5xy0`. -/
def execSeReg (x y : Nibble) (s : State) : Result := .next (s.skipIf (s.readV x == s.readV y))

/-- R76, `9xy0`. -/
def execSneReg (x y : Nibble) (s : State) : Result := .next (s.skipIf (s.readV x != s.readV y))

/-- R66, R108: an opcode of the invalid space executes as nothing. -/
def execInvalid (_op : Word) (s : State) : Result := .next s

end Sys2Proof.Machine
end

