-- ==== Sys2Proof/Machine/Display.lean ====
section
/-! DEFINITION. The Display collaborator, closed by its contract (60_exceptions.md R121, D16, log 6): an XOR blit over the
framebuffer that answers whether some pixel went from on to off. -/

namespace Sys2Proof.Machine

/-- `FB[row][col]` (R25). -/
def FrameBuffer.pixel (fb : FrameBuffer) (row : Fin 32) (col : Fin 64) : Bool := (fb.get row).get col

/-- `FB[row][col] <- v`. -/
def FrameBuffer.setPixel (fb : FrameBuffer) (row : Fin 32) (col : Fin 64) (v : Bool) : FrameBuffer :=
  fb.set row.val ((fb.get row).set col.val v col.isLt) row.isLt

/-- A draw in progress: the framebuffer so far and the collision answer `c` so far. -/
structure Canvas where
  fb : FrameBuffer
  collision : Bool
  deriving DecidableEq, Repr

/-- One set pixel of a sprite (R121): `if FB[row][col] = 1 then c <- 1`, then `FB[row][col] <- FB[row][col] XOR 1`. -/
def Canvas.toggle (k : Canvas) (row : Fin 32) (col : Fin 64) : Canvas where
  fb := k.fb.setPixel row col (!k.fb.pixel row col)
  collision := k.collision || k.fb.pixel row col

/-- The first `n` columns of one sprite row, from column `x`: bit 7 of the byte is the leftmost pixel, and a column wraps
modulo 64 (R121; SPRITE_MSB_LEFT = true is PRESUMED, D17, log 6). -/
def Canvas.drawBits (k : Canvas) (row : Fin 32) (x : Nat) (byte : Byte) : Nat → Canvas
  | 0 => k
  | b + 1 =>
    let k' := k.drawBits row x byte b
    if byte.getLsbD (7 - b) then k'.toggle row (Fin.ofNat 64 (x + b)) else k'

/-- The rows of a sprite, from row `y`; a row wraps modulo 32 (R121). -/
def Canvas.drawRows (k : Canvas) (x y : Nat) : List Byte → Canvas
  | [] => k
  | byte :: rest => Canvas.drawRows (k.drawBits (Fin.ofNat 32 y) x byte 8) x (y + 1) rest

/-- `draw(x, y, sprite)` (R121): the new framebuffer and the collision answer. -/
def FrameBuffer.draw (fb : FrameBuffer) (x y : Byte) (sprite : List Byte) : Canvas :=
  Canvas.drawRows { fb := fb, collision := false } x.toNat y.toNat sprite

end Sys2Proof.Machine
end

