-- ==== Sys2Proof/Machine/DisplayKeyTimer.lean ====
section
/-! DEFINITION. Display, keyboard and timer instructions (44_timer_key_display.md R96 to R103). -/

namespace Sys2Proof.Machine

/-- R96, `00E0`: every pixel off, and the event Clear. -/
def execCls (s : State) : Result := .next ((s.setFB FrameBuffer.allOff).emit .clear)

/-- R97 after the range check: draw `sprite` at the reduced coordinates, emit Draw, then VF = collision. -/
def drawSprite (x y : Byte) (sprite : List Byte) (s : State) : State :=
  let k := s.FB.draw x y sprite
  ((s.setFB k.fb).emit (.draw x y sprite k.collision)).writeFlag k.collision

/-- R97, `Dxyn`. -/
def execDrw (x y n : Nibble) (s : State) : Result :=
  .next (s.withRange (.drw x y n) n.toNat
    (drawSprite (spriteColumn (s.readV x)) (spriteRow (s.readV y)) (s.spriteAt n) s))

/-- A key query and its answer `p` (R98, R99): the event KeyQuery. -/
def State.recordKeyQuery (s : State) (k : Nibble) (p : Bool) : State := s.countKeyRead.emit (.keyQuery k p)

/-- R98, `Ex9E`: the answer is a free value (R30, D24, log 4). -/
def execSkp (x : Nibble) (s : State) : Result :=
  let k := keyNumber (s.readV x)
  let p := Config.keyPressed s.keyReads k
  .next ((s.recordKeyQuery k p).skipIf p)

/-- R99, `ExA1`: the answer is a free value (R30, D24, log 4). -/
def execSknp (x : Nibble) (s : State) : Result :=
  let k := keyNumber (s.readV x)
  let p := Config.keyPressed s.keyReads k
  .next ((s.recordKeyQuery k p).skipIf (!p))

/-- R100, `Fx07`. -/
def execLdVxDt (x : Nibble) (s : State) : Result := .next (s.writeV x s.DT)

/-- R101, `Fx15`. -/
def execLdDtVx (x : Nibble) (s : State) : Result := .next (s.setDT (s.readV x))

/-- `ST <- v` with the Audio signals of its transitions (R102, R113, R120, C2): SoundStart exactly on 0 to nonzero, SoundStop
exactly on nonzero to 0. -/
def State.writeST (s : State) (v : Byte) : State :=
  if s.ST = 0 then (if v = 0 then s.setST v else (s.setST v).emit .soundStart)
  else (if v = 0 then (s.setST v).emit .soundStop else s.setST v)

/-- R102, `Fx18`. -/
def execLdStVx (x : Nibble) (s : State) : Result := .next (s.writeST (s.readV x))

/-- R103, `Fx0A`: suspend fetch and execute until a key release. Vx is written by the Cycle that resolves the wait (R63). -/
def execLdVxK (x : Nibble) (s : State) : Result := .next (s.setMode (.awaitingKey x))

end Sys2Proof.Machine
end

