-- ==== Sys2Proof/Machine/IndexMemory.lean ====
section
/-! DEFINITION. The index register and the memory transfers (43_index_memory.md R90 to R95). The range is checked before the
first access, and `I` is not changed by a transfer (LOADSTORE_INCREMENTS_I = false, D9, log 12). -/

namespace Sys2Proof.Machine

/-- R90, `Annn`. -/
def execLdI (nnn : Addr) (s : State) : Result := .next (s.setI (addrWord nnn))

/-- R91, `Fx1E`: VF = index overflow, from the unbounded sum, written after `I`. -/
def execAddI (x : Nibble) (s : State) : Result :=
  .next ((s.setI (indexSum s.I (s.readV x))).writeFlag (indexOverflow s.I (s.readV x)))

/-- R92, `Fx29`. -/
def execLdF (x : Nibble) (s : State) : Result := .next (s.setI (glyphAddress (s.readV x)))

/-- R93, `Fx33`: the decimal digits of Vx at `I`, `I + 1`, `I + 2`. -/
def execLdB (x : Nibble) (s : State) : Result :=
  .next (s.withRange (.ldB x) 3 (s.setM (s.M.writeList s.I.toNat (decimalDigits (s.readV x)))))

/-- R94, `Fx55`: V0 to Vx at `I` and up. -/
def execLdStore (x : Nibble) (s : State) : Result :=
  .next (s.withRange (.ldStore x) (transferCount x) (s.setM (s.M.writeList s.I.toNat (s.firstRegs (transferCount x)))))

/-- R95, `Fx65`: V0 to Vx from `I` and up. -/
def execLdLoad (x : Nibble) (s : State) : Result :=
  .next (s.withRange (.ldLoad x) (transferCount x) (s.loadRegs (transferCount x)))

end Sys2Proof.Machine
end

