-- ==== Sys2Proof/Machine/Engine.lean ====
section
/-! DEFINITION. The five operations of 00_scope.md R5: `Cycle` (the ExecutionEngine, 40_cycle.md R61 to R65), `Tick` (the
TimerScheduler, 60_exceptions.md R113), `KeyRelease` (the InputWaitProtocol, R116), `Reset` (70_reset_and_hazards.md R126) and
`LoadProgram` (20_memory.md R43). -/

namespace Sys2Proof.Machine

/-- `Cycle` (R61). In mode AwaitingKey or Halted it changes nothing (R62); in mode KeyResolved it only writes the key (R63,
D14); in mode Running it fetches and executes one instruction (R64, R65). The first Cycle of a session starts it (R43). -/
def cycle (s : State) : Result :=
  match s.mode with
  | .halted _ => .next s
  | .awaitingKey _ => .next s
  | .keyResolved x k => .next ((s.writeV x (k.setWidth 8)).setMode .running)
  | .running =>
    match s.fetchWord with
    | none => .next (s.setSession .started).raiseFetch
    | some op => exec (decode op) (s.setSession .started).advance

/-- A timer's decrement by one, saturating at 0 (R20, R113). -/
def countDown (v : Byte) : Byte := if v = 0 then 0 else v - 1

/-- `Tick` (R113), in every mode (R114): both timers count down, and ST reaching 0 emits SoundStop. -/
def tick (s : State) : State := (s.setDT (countDown s.DT)).writeST (countDown s.ST)

/-- `KeyRelease(k)` (R116): recorded in mode AwaitingKey only, so the first release wins (D15, log 15). -/
def keyRelease (k : Nibble) (s : State) : State :=
  match s.mode with
  | .awaitingKey x => s.setMode (.keyResolved x k)
  | .running => s
  | .keyResolved _ _ => s
  | .halted _ => s

/-- `Reset` applied in any state (R126): the previous session is discarded. What is no part of the session stays: the host's
operations still to come, and the counters that keep the free inputs fresh (log 8). -/
def resetSession (s : State) : State :=
  { State.reset with hostOps := s.hostOps, randDraws := s.randDraws, keyReads := s.keyReads }

/-- `LoadProgram(bytes)` (R43, R60): the bytes are copied to 0x200 and up. Refused outside the state `Reset` builds, and when
the program is longer than 3584 bytes (D19, log 9). -/
def loadProgram (bytes : List Byte) (s : State) : Result :=
  match s.session with
  | .loaded => .refused .loadNotAdmitted
  | .started => .refused .loadNotAdmitted
  | .built =>
    if Config.progMax < bytes.length then .refused (.programTooLong bytes.length)
    else .next ((s.setM (s.M.writeList Config.progBase bytes)).setSession .loaded)

/-- One operation of the host (R5, R26). -/
def applyOp (op : HostOp) (s : State) : Result :=
  match op with
  | .reset => .next (resetSession s)
  | .loadProgram bytes => loadProgram bytes s
  | .cycle => cycle s
  | .tick => .next (tick s)
  | .keyRelease k => .next (keyRelease k s)

/-- The next operation: the first of the host's list, or a Cycle when the list is empty (log 1). -/
def nextOp (s : State) : HostOp := s.hostOps.headD .cycle

/-- One operation taken from the host's list and applied. -/
def stepOnce (s : State) : Result := applyOp (nextOp s) (s.setHostOps s.hostOps.tail)

/-- A `pc` an opcode can be fetched at: the state's own, or 0x200 when a fetch there would raise (log 20). -/
def fetchablePc (s : State) : Word :=
  if s.pc.toNat + 1 < Config.memSize then s.pc else BitVec.ofNat 16 Config.progBase

/-- The session phase once a word is placed: as after a LoadProgram, if none came before (log 20). -/
def placedSession : Session → Session
  | .built => .loaded
  | .loaded => .loaded
  | .started => .started

/-- An opcode placed where the next step fetches: the two bytes at `pc`, the mode Running and no host operation before the
Cycle (log 2, log 20). -/
def placeOpcode (op : Word) (s : State) : State :=
  { s with
    pc := fetchablePc s
    M := s.M.writeList (fetchablePc s).toNat [op.extractLsb' 8 8, op.extractLsb' 0 8]
    mode := .running
    session := placedSession s.session
    hostOps := [] }

end Sys2Proof.Machine
end

