-- ==== Sys2Proof/Machine/Step.lean ====
section
/-! DEFINITION. One step of the machine: one operation of the host (00_scope.md R5), a `Cycle` when none is listed (log 1). -/

namespace Sys2Proof.Machine

/-- One atomic transition (R5, R26). -/
def step (s : State) : Host.Outcome State Fault Refusal := stepOnce s

/-- The state with an opcode-table word placed where the next step fetches (log 2, log 20). -/
def State.withFetchWord (s : State) (nbits w : Nat) : State := placeOpcode (tableOpcode nbits w) s

end Sys2Proof.Machine
end

