-- ==== Sys2Proof/Safety.lean ====
section
/-! DEFINITION. The terms claims are stated in: what an instruction leaves unchanged (its frame), and what holds of a state
that runs can reach (10_state.md R34, 60_exceptions.md R105, R120, 20_memory.md R43). -/

namespace Sys2Proof.Machine

/-- What an instruction may change. Everything not named is unchanged (`Frame`). -/
structure Changes where
  /-- the registers it may write -/
  regs : List Nibble := []
  I : Bool := false
  pc : Bool := false
  /-- the call stack's entries and `sp` -/
  callStack : Bool := false
  DT : Bool := false
  ST : Bool := false
  mode : Bool := false
  FB : Bool := false
  trace : Bool := false
  /-- the counter of RAND draws (the model's own) -/
  randDraws : Bool := false
  /-- the counter of key queries (the model's own) -/
  keyReads : Bool := false
  /-- the bytes of memory it stores: the first address and how many -/
  stored : Nat × Nat := (0, 0)

/-- From `s` to `t`, nothing changed but what `c` names: every other register, the special registers, the mode, the call
stack, the framebuffer, the trace, every byte of memory outside the stored bytes, and the session. -/
structure Frame (c : Changes) (s t : State) : Prop where
  regs : ∀ r, r ∉ c.regs → t.readV r = s.readV r
  I : c.I = false → t.I = s.I
  pc : c.pc = false → t.pc = s.pc
  callStack : c.callStack = false → t.stack = s.stack ∧ t.sp = s.sp
  DT : c.DT = false → t.DT = s.DT
  ST : c.ST = false → t.ST = s.ST
  mode : c.mode = false → t.mode = s.mode
  FB : c.FB = false → t.FB = s.FB
  trace : c.trace = false → t.trace = s.trace
  randDraws : c.randDraws = false → t.randDraws = s.randDraws
  keyReads : c.keyReads = false → t.keyReads = s.keyReads
  memory : ∀ a, ¬ (c.stored.1 ≤ a ∧ a < c.stored.1 + c.stored.2) → t.M.read a = s.M.read a
  session : t.session = s.session ∧ t.hostOps = s.hostOps

/-- The state after `raise` (R105): the mode holds the record, the trace reports it, and everything else is as before. -/
def State.haltedWith (s : State) (rec : HaltRecord) : State :=
  { s with mode := .halted rec, trace := s.trace ++ [.halt rec] }

/-- The error an instruction raises, by the table of R104: its cause and, for a memory access, the lowest failed address
(R38). An instruction has at most one (R109); every other condition is no error. -/
def errorOf (s : State) : Instr → Option (Cause × Option Nat)
  | .ret => if s.sp.val = 0 then some (.stackUnderflow, none) else none
  | .call _ => if s.sp.val = 16 then some (.stackOverflow, none) else none
  | .drw _ _ n =>
    if 0 < n.toNat ∧ 4096 ≤ s.I.toNat + n.toNat - 1 then some (.outOfBoundsMemoryAccess, some (max s.I.toNat 4096)) else none
  | .ldB _ => if 4096 ≤ s.I.toNat + 2 then some (.outOfBoundsMemoryAccess, some (max s.I.toNat 4096)) else none
  | .ldStore x => if 4096 ≤ s.I.toNat + x.toNat then some (.outOfBoundsMemoryAccess, some (max s.I.toNat 4096)) else none
  | .ldLoad x => if 4096 ≤ s.I.toNat + x.toNat then some (.outOfBoundsMemoryAccess, some (max s.I.toNat 4096)) else none
  | .cls | .jp _ | .seImm _ _ | .sneImm _ _ | .seReg _ _ | .ldImm _ _ | .addImm _ _ | .ldReg _ _ | .orReg _ _
  | .andReg _ _ | .xorReg _ _ | .addReg _ _ | .sub _ _ | .shr _ _ | .subn _ _ | .shl _ _ | .sneReg _ _ | .ldI _
  | .jpV0 _ | .rnd _ _ | .skp _ | .sknp _ | .ldVxDt _ | .ldVxK _ | .ldDtVx _ | .ldStVx _ | .addI _ | .ldF _
  | .invalid _ => none

/-- The state one operation of the host is applied to: the operation is taken from the list (R5, log 1). -/
def State.afterTaking (s : State) : State := { s with hostOps := s.hostOps.tail }

/-- The state an instruction executes in (R10, R64): `pc` is past the opcode, and a Cycle has been applied (R43). -/
def State.fetched (s : State) : State := { s with pc := s.pc + 2, session := .started }

/-- The bounds of R34: `pc` is at most 0x10FE and every call-stack entry at most 0x1000. The other bounds of R34 are the
types of the fields. -/
def State.withinBounds (s : State) : Prop := s.pc.toNat ≤ 0x10FE ∧ ∀ e ∈ s.stack.toList, e.toNat ≤ 0x1000

/-- Whether the sound is on after one more event; none once a start follows a start or a stop follows a stop (R120). -/
def soundEvent (on : Option Bool) (e : Event) : Option Bool :=
  match e with
  | .soundStart => if on = some false then some true else none
  | .soundStop => if on = some true then some false else none
  | .clear => on
  | .draw _ _ _ _ => on
  | .keyQuery _ _ => on
  | .halt _ => on

/-- Whether the sound is on after a trace that starts with the sound off; none when its starts and stops do not alternate
(R120). -/
def soundOf (trace : List Event) : Option Bool := trace.foldl soundEvent (some false)

/-- R120: the trace's starts and stops alternate, starting with a start, and the sound is on exactly while ST is not 0. -/
def State.audioAgrees (s : State) : Prop := soundOf s.trace = some s.soundActive

/-- The halts a trace reports, oldest first (R31, R105). -/
def haltsOf (trace : List Event) : List HaltRecord :=
  trace.filterMap fun e => match e with
    | .halt rec => some rec
    | .clear | .draw _ _ _ _ | .keyQuery _ _ | .soundStart | .soundStop => none

/-- The halt a mode holds (R22). -/
def haltsIn : Mode → List HaltRecord
  | .halted rec => [rec]
  | .running | .awaitingKey _ | .keyResolved _ _ => []

/-- The trace reports exactly the halt the mode holds: one halt in Halted, none in every other mode (R105, R106). -/
def State.haltAgrees (s : State) : Prop := haltsOf s.trace = haltsIn s.mode

/-- The session phase says what R43 asks: while it is `built` the state is the one `Reset` builds, while it is `loaded` it is
that state but for memory, and outside mode Running a Cycle has been applied. -/
def State.sessionAgrees (s : State) : Prop :=
  (s.mode ≠ .running → s.session = .started) ∧
  (s.session = .built → s = resetSession s) ∧
  (s.session = .loaded → s = { resetSession s with M := s.M, session := .loaded })

/-- Two states that differ at most in call-stack entries not in use (R19): the entries from `sp` up. -/
def SameButStaleStack (s t : State) : Prop :=
  t = { s with stack := t.stack } ∧ ∀ j (h : j < 16), j < s.sp.val → t.stack[j] = s.stack[j]

/-- The pixel at `row`, `col` is one a sprite drawn at `x`, `y` sets (R121): some set bit of some sprite row lands on it. -/
def spriteSets (x y : Byte) (sprite : List Byte) (row : Fin 32) (col : Fin 64) : Prop :=
  ∃ r b : Nat, ∃ h : r < sprite.length, b < 8 ∧ (sprite[r]).getLsbD (7 - b) = true ∧
    row.val = (y.toNat + r) % 32 ∧ col.val = (x.toNat + b) % 64

end Sys2Proof.Machine
end

