-- ==== Sys2Proof/Certificates/Slice0/Obligations.lean ====
section
/-! DEFINITION. The statements for the provers. Each docstring says which rule of the spec the statement formalises; a
statement that rests on a decision of the spec's own (D<n>) or on a log entry says so. -/

open Sys2Proof Sys2Proof.Machine

/-! ## Encoding -/

/-- Words written out from the patterns of R54 decode to the instructions they stand for: one of each family, and two of the
invalid space (R56, R57; STRICT_FIXED_NIBBLES, D13, log 14). -/
def Obligations.OpcodeMapWordsDecode : Prop :=
  decode 0x00EE = .ret ∧ decode 0x2ABC = .call 0xABC ∧ decode 0x8127 = .subn 0x1 0x2 ∧ decode 0xC30F = .rnd 0x3 0x0F ∧
  decode 0xFA33 = .ldB 0xA ∧ decode 0xD12F = .drw 0x1 0x2 0xF ∧ decode 0xE5A1 = .sknp 0x5 ∧
  decode 0x5121 = .invalid 0x5121 ∧ decode 0x0000 = .invalid 0x0000

/-- R52: every field of every opcode, as a number, and its unsigned use at 16 bits. -/
def Obligations.FieldsOfEveryOpcode : Prop :=
  ∀ op : Word,
    (fields op).d1.toNat = op.toNat / 4096 ∧
    (fields op).x.toNat = op.toNat / 256 % 16 ∧
    (fields op).y.toNat = op.toNat / 16 % 16 ∧
    (fields op).n.toNat = op.toNat % 16 ∧
    (fields op).nn.toNat = op.toNat % 256 ∧
    (fields op).nnn.toNat = op.toNat % 4096 ∧
    addrWord (fields op).nnn = op &&& 0x0FFF ∧
    (fields op).nn.setWidth 16 = op &&& 0x00FF

/-- Decode and encode agree: every well-formed instruction is read back from its opcode, and from its two bytes in front of
any others (R51, R53, R54, R55). -/
def Obligations.DecodeOfEncode : Prop :=
  ∀ i : Instr, i.wellFormed = true →
    decode (encode i) = i ∧ ∀ rest : List Byte, decodeBytes (encodeBytes i ++ rest) = .ok (i, rest)

/-- Every opcode has one meaning: what it decodes to is well formed and encodes to the opcode itself (R51, R55). -/
def Obligations.EncodeOfDecode : Prop :=
  ∀ op : Word, (decode op).wellFormed = true ∧ encode (decode op) = op

/-- The decoding procedure of R55 is the map of R54: a row's mask and match select an opcode exactly when it decodes to that
row's instruction, at most one row matches, and what no row matches is INVALID (R57; D13). -/
def Obligations.DecodingFollowsTheOpcodeMap : Prop :=
  ∀ op : Word,
    (∀ row ∈ opcodeMap, row.selects op = true ↔ (decode op).mnemonic = row.mnemonic) ∧
    (opcodeMap.filter fun row => row.selects op).length ≤ 1 ∧
    ((∀ row ∈ opcodeMap, row.selects op = false) ↔ decode op = .invalid op)

/-- The table of R57: which opcodes are invalid, group by group (D13). -/
def Obligations.InvalidSpaceByGroup : Prop :=
  ∀ op : Word, decode op = .invalid op ↔
    ((fields op).d1 = 0x0 ∧ (fields op).nnn ∉ [0x0E0#12, 0x0EE#12]) ∨
    ((fields op).d1 = 0x5 ∧ (fields op).n ≠ 0x0) ∨
    ((fields op).d1 = 0x8 ∧ (fields op).n ∈ [0x8#4, 0x9#4, 0xA#4, 0xB#4, 0xC#4, 0xD#4, 0xF#4]) ∨
    ((fields op).d1 = 0x9 ∧ (fields op).n ≠ 0x0) ∨
    ((fields op).d1 = 0xE ∧ (fields op).nn ∉ [0x9E#8, 0xA1#8]) ∨
    ((fields op).d1 = 0xF ∧
      (fields op).nn ∉ [0x07#8, 0x0A#8, 0x15#8, 0x18#8, 0x1E#8, 0x29#8, 0x33#8, 0x55#8, 0x65#8])

/-! ## The cycle and the host's operations -/

/-- A step in mode Running executes the decoded instruction once, with `pc` moved past it (R61, R64, R65). A step is a Cycle
when the host's list is empty or starts with one (log 1). -/
def Obligations.StepRunsTheDecodedInstruction : Prop :=
  ∀ s : State, nextOp s = .cycle → s.mode = .running → s.pc.toNat + 1 < 4096 →
    step s = exec (decode (s.M.read s.pc.toNat ++ s.M.read (s.pc.toNat + 1))) s.afterTaking.fetched

/-- A word placed by `withFetchWord` is what the very next step runs (log 2, log 20). Memory must be canonical, which is an
invariant (MemoryStaysCanonical). -/
def Obligations.PlacedWordRunsNext : Prop :=
  ∀ (s : State) (w : Nat), s.M.wf →
    step (s.withFetchWord 16 w) = exec (decode (BitVec.ofNat 16 w)) (s.withFetchWord 16 w).fetched

/-- A fetch whose second byte lies outside memory halts with OutOfBoundsMemoryAccess, names no opcode and leaves `pc` (R64;
the spec's decisions D2 and D6). -/
def Obligations.FetchOutsideMemoryHalts : Prop :=
  ∀ s : State, nextOp s = .cycle → s.mode = .running → 4096 ≤ s.pc.toNat + 1 →
    step s = .next ({ s.afterTaking with session := .started }.haltedWith
      { cause := .outOfBoundsMemoryAccess, instrAt := s.pc, opcode := none, addr := some (max s.pc.toNat 4096) })

/-- A Cycle outside mode Running: nothing in AwaitingKey and Halted (R62, D2), and in KeyResolved only the key's value in its
register and the return to Running, with no fetch (R63, D14). -/
def Obligations.CycleOutsideRunning : Prop :=
  ∀ s : State, nextOp s = .cycle →
    (∀ x, s.mode = .awaitingKey x → step s = .next s.afterTaking) ∧
    (∀ rec, s.mode = .halted rec → step s = .next s.afterTaking) ∧
    (∀ x k, s.mode = .keyResolved x k → ∃ t, step s = .next t ∧
      (t.readV x).toNat = k.toNat ∧ t.mode = .running ∧ Frame { regs := [x], mode := true } s.afterTaking t)

/-- R113: a Tick counts each timer down by one, saturating at 0, and signals the stop exactly on ST's edge to 0. -/
def Obligations.TickCountsTimersDown : Prop :=
  ∀ s : State, nextOp s = .tick → ∃ t, step s = .next t ∧
    t.DT.toNat = s.DT.toNat - 1 ∧ t.ST.toNat = s.ST.toNat - 1 ∧
    t.trace = s.trace ++ (if s.ST = 1 then [.soundStop] else []) ∧
    Frame { DT := true, ST := true, trace := true } s.afterTaking t

/-- A key release is recorded in mode AwaitingKey and does nothing in every other mode (R116; FIRST_RELEASE_WINS, D15,
log 15). -/
def Obligations.KeyReleaseIsRecordedOnce : Prop :=
  ∀ (s : State) (k : Nibble), nextOp s = .keyRelease k →
    (∀ x, s.mode = .awaitingKey x → step s = .next { s.afterTaking with mode := .keyResolved x k }) ∧
    ((∀ x, s.mode ≠ .awaitingKey x) → step s = .next s.afterTaking)

/-- An admitted LoadProgram copies its bytes to 0x200 and up and changes nothing else (R43; D19, log 9). Memory must be
canonical, which is an invariant (MemoryStaysCanonical). -/
def Obligations.LoadProgramCopiesItsBytes : Prop :=
  ∀ (s : State) (bytes : List Byte), nextOp s = .loadProgram bytes → s.session = .built → bytes.length ≤ 3584 → s.M.wf →
    ∃ t, step s = .next t ∧
      (∀ (j : Nat) (h : j < bytes.length), t.M.read (0x200 + j) = bytes[j]) ∧
      (∀ a, ¬ (0x200 ≤ a ∧ a < 0x200 + bytes.length) → t.M.read a = s.M.read a) ∧
      t = { s.afterTaking with M := t.M, session := .loaded }

/-- A LoadProgram that is not admitted is refused, and no other step is (R43; D19, log 9): outside the state `Reset` builds it
is refused as not admitted, and in that state a program of more than 3584 bytes is refused as too long. Every other step, an
admitted LoadProgram among them, has a next state, and none faults. -/
def Obligations.OnlyUnadmittedLoadIsRefused : Prop :=
  ∀ s : State,
    (∀ bytes, nextOp s = .loadProgram bytes →
      (s.session ≠ .built → step s = .refused .loadNotAdmitted) ∧
      (s.session = .built → 3584 < bytes.length → step s = .refused (.programTooLong bytes.length))) ∧
    ((∀ bytes, nextOp s = .loadProgram bytes → s.session = .built ∧ bytes.length ≤ 3584) → ∃ t, step s = .next t)

/-- What Reset leaves (R33, R126): registers, call stack and timers 0, `pc` 0x200, mode Running, memory FONT then zero. The
framebuffer and the trace are the spec's decisions D16 and D1; the bytes of FONT are a parameter (D18, log 5). -/
def Obligations.ResetState : Prop :=
  (∀ r, State.reset.readV r = 0) ∧ State.reset.I = 0 ∧ State.reset.pc = 0x200 ∧
  (∀ e ∈ State.reset.stack.toList, e = 0) ∧ State.reset.sp.val = 0 ∧ State.reset.DT = 0 ∧ State.reset.ST = 0 ∧
  State.reset.mode = .running ∧ Config.font.length = 80 ∧
  (∀ (a : Nat) (h : a < Config.font.length), State.reset.M.read a = Config.font[a]) ∧
  (∀ a, 80 ≤ a → State.reset.M.read a = 0) ∧
  (∀ row col, State.reset.FB.pixel row col = false) ∧ State.reset.trace = []

/-- Reset applied in any state builds the initial state and emits no event (R126; D1, D16). The host's operations still to
come and the two counters of the free inputs are no part of the session (log 8). -/
def Obligations.ResetDiscardsTheSession : Prop :=
  ∀ s : State, nextOp s = .reset →
    step s = .next { State.reset with hostOps := s.hostOps.tail, randDraws := s.randDraws, keyReads := s.keyReads }

/-! ## Whole-machine rules -/

/-- The error taxonomy is exact and halts are precise (R104, R105, R107, R109; D2, D4): an instruction whose condition holds
halts with its record and changes nothing else, and no other instruction halts or reports a halt. -/
def Obligations.ErrorsAreExactAndPrecise : Prop :=
  ∀ (i : Instr) (s : State),
    (∀ cause addr, errorOf s i = some (cause, addr) →
      exec i s = .next (s.haltedWith { cause := cause, instrAt := s.pc - 2, opcode := some (encode i), addr := addr })) ∧
    (errorOf s i = none → ∃ t, exec i s = .next t ∧ haltsOf t.trace = haltsOf s.trace ∧
      (t.mode = s.mode ∨ ∃ x, t.mode = .awaitingKey x))

/-- Halted is terminal (R106, R114; D2, D3, log 7): whatever the host applies but Reset, no operation but Tick changes
anything, and a Tick changes only the timers and appends at most the sound's stop to the trace, exactly when ST was 1. The
premise is an invariant (SessionPhaseStaysTrue). -/
def Obligations.HaltedIsTerminal : Prop :=
  ∀ (s t : State) (rec : HaltRecord), s.sessionAgrees → s.mode = .halted rec → nextOp s ≠ .reset → step s = .next t →
    (nextOp s ≠ .tick → t = s.afterTaking) ∧
    t.trace = s.trace ++ (if nextOp s = .tick ∧ s.ST = 1 then [.soundStop] else []) ∧
    haltsOf t.trace = haltsOf s.trace ∧ Frame { DT := true, ST := true, trace := true } s.afterTaking t

/-- The transitions of the input wait are those of R117, with the action of each, and Halted is entered from Running only.
That a second release is ignored and the resolving Cycle fetches nothing are the spec's decisions D15 and D14 (log 15); that
Halted stays Halted, and that a Tick operates there, are D2 and D3 (R106, R114; log 7). -/
def Obligations.InputWaitTransitions : Prop :=
  ∀ s t : State, nextOp s ≠ .reset → step s = .next t →
    (s.mode = .running →
      t.mode = .running ∨
      (∃ x, t.mode = .awaitingKey x ∧ nextOp s = .cycle ∧ ∃ op, s.fetchWord = some op ∧ decode op = .ldVxK x) ∨
      (∃ rec, t.mode = .halted rec ∧ nextOp s = .cycle)) ∧
    (∀ op x, s.mode = .running → nextOp s = .cycle → s.fetchWord = some op → decode op = .ldVxK x →
      t = { s.afterTaking.fetched with mode := .awaitingKey x }) ∧
    (∀ x, s.mode = .awaitingKey x →
      (nextOp s = .cycle → t = s.afterTaking) ∧
      (∀ k, nextOp s = .keyRelease k → t = { s.afterTaking with mode := .keyResolved x k }) ∧
      ((∀ k, nextOp s ≠ .keyRelease k) → t.mode = .awaitingKey x)) ∧
    (∀ x k, s.mode = .keyResolved x k →
      (nextOp s = .cycle → t.mode = .running ∧ t.readV x = k.setWidth 8 ∧
        Frame { regs := [x], mode := true } s.afterTaking t) ∧
      (∀ k', nextOp s = .keyRelease k' → t = s.afterTaking) ∧
      (nextOp s ≠ .cycle → t.mode = .keyResolved x k)) ∧
    (nextOp s = .tick → t.mode = s.mode ∧ Frame { DT := true, ST := true, trace := true } s.afterTaking t) ∧
    (∀ rec, s.mode = .halted rec → t.mode = .halted rec)

/-- R15, C1: only the seven flag writers, and the nine rows that write a destination whose x field is 0xF, change VF. -/
def Obligations.FlagRegisterWriters : Prop :=
  ∀ (i : Instr) (s t : State), exec i s = .next t → t.readV 0xF ≠ s.readV 0xF →
    i.mnemonic ∈ ["ADD.reg", "SUB", "SUBN", "SHR", "SHL", "DRW", "ADD.I"] ∨
    (i.mnemonic ∈ ["LD.imm", "ADD.imm", "LD.reg", "OR", "AND", "XOR", "RND", "LD.Vx_DT", "LD.load"] ∧
      (fields (encode i)).x = 0xF)

/-- Which instructions change what (R17, R19, R20, R21, R25, R32, R35): every other component is out of an instruction's
reach. Memory is compared byte by byte. -/
def Obligations.StateComponentWriters : Prop :=
  ∀ (i : Instr) (s t : State), exec i s = .next t →
    (t.I ≠ s.I → i.mnemonic ∈ ["LD.I", "ADD.I", "LD.F"]) ∧
    (t.stack ≠ s.stack → i.mnemonic = "CALL") ∧
    (t.sp ≠ s.sp → i.mnemonic ∈ ["RET", "CALL"]) ∧
    (t.DT ≠ s.DT → i.mnemonic = "LD.DT_Vx") ∧
    (t.ST ≠ s.ST → i.mnemonic = "LD.ST_Vx") ∧
    (t.FB ≠ s.FB → i.mnemonic ∈ ["CLS", "DRW"]) ∧
    (∀ a, t.M.read a ≠ s.M.read a → i.mnemonic ∈ ["LD.B", "LD.store"]) ∧
    (t.mode ≠ s.mode → i.mnemonic ∈ ["LD.Vx_K", "RET", "CALL", "DRW", "LD.B", "LD.store", "LD.load"]) ∧
    (t.trace ≠ s.trace → i.mnemonic ∈
      ["CLS", "DRW", "SKP", "SKNP", "LD.ST_Vx", "RET", "CALL", "LD.B", "LD.store", "LD.load"]) ∧
    (t.pc ≠ s.pc → i.mnemonic ∈
      ["RET", "JP", "CALL", "JP.V0", "SE.imm", "SNE.imm", "SE.reg", "SNE.reg", "SKP", "SKNP"]) ∧
    (t.session = s.session ∧ t.hostOps = s.hostOps)

/-! ## Invariants every step keeps -/

/-- Every step keeps memory canonical: addresses rising and below 4096, and no byte listed that equals its reset contents. -/
def Obligations.MemoryStaysCanonical : Prop :=
  ∀ s t : State, s.M.wf → step s = .next t → t.M.wf

/-- Every step keeps the bounds of R34: `pc` at most 0x10FE, every call-stack entry at most 0x1000. The spec derives them;
they rest on its decisions D5 and D6. -/
def Obligations.BoundsAreKept : Prop :=
  ∀ s t : State, s.withinBounds → step s = .next t → t.withinBounds

/-- Every step keeps R120: sound starts and stops alternate, and the sound is on exactly while ST is not 0. The spec derives
it from R102 and R113. -/
def Obligations.SoundEventsAlternate : Prop :=
  ∀ s t : State, s.audioAgrees → step s = .next t → t.audioAgrees

/-- Every step keeps the trace's halts equal to the mode's: exactly one report in Halted, none elsewhere (R31, R105, R106;
D1, D2). -/
def Obligations.HaltReportsMatchTheMode : Prop :=
  ∀ s t : State, s.haltAgrees → step s = .next t → t.haltAgrees

/-- Every step keeps the session phase true to R43: `built` is exactly the state `Reset` builds, `loaded` that state but for
memory, and outside Running a Cycle has been applied (D19, log 9). -/
def Obligations.SessionPhaseStaysTrue : Prop :=
  ∀ s t : State, s.sessionAgrees → step s = .next t → t.sessionAgrees

/-- The state after reset meets every invariant above. -/
def Obligations.ResetMeetsTheInvariants : Prop :=
  State.reset.M.wf ∧ State.reset.withinBounds ∧ State.reset.audioAgrees ∧ State.reset.haltAgrees ∧
  State.reset.sessionAgrees

/-! ## Memory, isolation and runs -/

/-- Canonical memories that read the same are the same data (R36; the model's representation of R24). -/
def Obligations.EqualReadsMeanEqualMemory : Prop :=
  ∀ m m' : Memory, m.wf → m'.wf → (∀ a, a < 4096 → m.read a = m'.read a) → m = m'

/-- R49 (D21): bytes stored by Fx55 are what the very next fetch sees. -/
def Obligations.StoredBytesAreFetched : Prop :=
  ∀ (x : Nibble) (s : State) (j : Nat), s.M.wf → s.I.toNat + x.toNat < 4096 → j < x.toNat →
    s.pc.toNat = s.I.toNat + j →
    ∃ t, exec (.ldStore x) s = .next t ∧
      t.fetchWord = some (s.readV (BitVec.ofNat 4 j) ++ s.readV (BitVec.ofNat 4 (j + 1)))

/-- Call-stack entries from `sp` up are out of reach (R19; D10): two states that differ only there stay so, step by step,
whatever the host applies. -/
def Obligations.StaleStackEntriesAreUnobservable : Prop :=
  ∀ s s' t : State, SameButStaleStack s s' → step s = .next t →
    ∃ t', step s' = .next t' ∧ SameButStaleStack t t'

/-- Only RND reads RAND and only SKP and SKNP read KEYS (R30; D23, D24): every other instruction does the same whatever the
counters of the free inputs (log 3, log 4). -/
def Obligations.FreeInputReaders : Prop :=
  ∀ (i : Instr) (s t : State) (draws reads : Nat), i.mnemonic ∉ ["RND", "SKP", "SKNP"] → exec i s = .next t →
    exec i { s with randDraws := draws, keyReads := reads } = .next { t with randDraws := draws, keyReads := reads }

/-- Drawing the same sprite twice at the same place restores any framebuffer; on a cleared display the first draw does not
collide, and the second collides exactly when the sprite has a set pixel (R97's example, R121; D16, D17, log 6). A sprite has
at most 15 rows. -/
def Obligations.SpriteDrawnTwiceIsErased : Prop :=
  ∀ (fb : FrameBuffer) (x y : Byte) (sprite : List Byte), sprite.length ≤ 15 →
    ((fb.draw x y sprite).fb.draw x y sprite).fb = fb ∧
    (((FrameBuffer.allOff.draw x y sprite).fb.draw x y sprite).collision = true ↔ ∃ b ∈ sprite, b ≠ 0) ∧
    (FrameBuffer.allOff.draw x y sprite).collision = false

/-- R129: with no program, 1792 cycles move `pc` from 0x200 to 0x1000 and change nothing else, cycle 1793 halts, and every
later cycle changes nothing. The spec derives it. The run starts with no host operation listed (log 1). -/
def Obligations.RunWithNothingLoaded : Prop :=
  (∀ k, k ≤ 1792 → Sys2Proof.core.run k State.reset =
    .next { State.reset with pc := BitVec.ofNat 16 (0x200 + 2 * k), session := if k = 0 then .built else .started }) ∧
  (∀ k, 1793 ≤ k → Sys2Proof.core.run k State.reset =
    .next (State.haltedWith { State.reset with pc := 0x1000, session := .started }
      { cause := .outOfBoundsMemoryAccess, instrAt := 0x1000, opcode := none, addr := some 0x1000 }))

/-- A wait ends with the release and one Cycle (R62, R63, R113, R116, R124; D14, log 15): however many Cycles and Ticks come
first, the key lands in the target register and execution resumes where it was. The Ticks among them run the timers down,
with at most one stop signal, and nothing else changes. -/
def Obligations.KeyWaitEndsWithTheRelease : Prop :=
  ∀ (s : State) (x k : Nibble) (waits rest : List HostOp), s.mode = .awaitingKey x →
    (∀ op ∈ waits, op = .cycle ∨ op = .tick) → s.hostOps = waits ++ .keyRelease k :: .cycle :: rest →
    ∃ t : State, Sys2Proof.core.run (waits.length + 2) s = .next t ∧ (t.readV x).toNat = k.toNat ∧ t.mode = .running ∧
      t.DT.toNat = s.DT.toNat - waits.count .tick ∧ t.ST.toNat = s.ST.toNat - waits.count .tick ∧
      t.trace = s.trace ++ (if 0 < s.ST.toNat ∧ s.ST.toNat ≤ waits.count .tick then [.soundStop] else []) ∧
      Frame { regs := [x], mode := true, DT := true, ST := true, trace := true } { s with hostOps := rest } t

/-- Ticks run the timers down to 0 and no further, with exactly one stop signal, in every mode (R113, R114, R115; D3). -/
def Obligations.TicksRunTheTimersDown : Prop :=
  ∀ (s : State) (n : Nat) (rest : List HostOp), s.hostOps = List.replicate n .tick ++ rest →
    ∃ t, Sys2Proof.core.run n s = .next t ∧
      t.DT.toNat = s.DT.toNat - n ∧ t.ST.toNat = s.ST.toNat - n ∧
      t.trace = s.trace ++ (if 0 < s.ST.toNat ∧ s.ST.toNat ≤ n then [.soundStop] else []) ∧
      Frame { DT := true, ST := true, trace := true } { s with hostOps := rest } t

/-! ## Control flow -/

/-- R69: RET pops the return address; the entry is not cleared (D10). With an empty stack it halts (D2). -/
def Obligations.ReturnPopsTheStack : Prop :=
  ∀ s : State,
    (∀ h : 0 < s.sp.val, ∃ t, exec .ret s = .next t ∧
      t.pc = s.stack[s.sp.val - 1]'(by have := s.sp.isLt; omega) ∧ t.sp.val = s.sp.val - 1 ∧ t.stack = s.stack ∧
      Frame { pc := true, callStack := true } s t) ∧
    (s.sp.val = 0 → exec .ret s = .next (s.haltedWith
      { cause := .stackUnderflow, instrAt := s.pc - 2, opcode := some 0x00EE, addr := none }))

/-- R71: CALL pushes the return address, which is `pc`, and jumps; no other entry changes. With a full stack it halts (D2). -/
def Obligations.CallPushesTheReturnAddress : Prop :=
  ∀ (nnn : Addr) (s : State),
    (∀ h : s.sp.val < 16, ∃ t, exec (.call nnn) s = .next t ∧
      t.pc.toNat = nnn.toNat ∧ t.sp.val = s.sp.val + 1 ∧ t.stack[s.sp.val] = s.pc ∧
      (∀ (j : Nat) (hj : j < 16), j ≠ s.sp.val → t.stack[j] = s.stack[j]) ∧
      Frame { pc := true, callStack := true } s t) ∧
    (s.sp.val = 16 → exec (.call nnn) s = .next (s.haltedWith
      { cause := .stackOverflow, instrAt := s.pc - 2, opcode := some (encode (.call nnn)), addr := none }))

/-- R70: JP sets `pc` to exactly nnn, whatever `pc` was. -/
def Obligations.JumpSetsPc : Prop :=
  ∀ (nnn : Addr) (s : State), ∃ t, exec (.jp nnn) s = .next t ∧ t.pc.toNat = nnn.toNat ∧ Frame { pc := true } s t

/-- R72: JP V0 adds V0, always V0, and the sum is never masked (D5, log 17). -/
def Obligations.JumpWithOffsetAddsV0 : Prop :=
  ∀ (nnn : Addr) (s : State), ∃ t, exec (.jpV0 nnn) s = .next t ∧
    t.pc.toNat = nnn.toNat + (s.readV 0).toNat ∧ Frame { pc := true } s t

/-- R73 to R76, R67: each skip moves `pc` by 2 more exactly when its condition holds, and changes nothing else. -/
def Obligations.ConditionalSkips : Prop :=
  ∀ (x y : Nibble) (nn : Byte) (s : State),
    (∃ t, exec (.seImm x nn) s = .next t ∧ t.pc = (if s.readV x = nn then s.pc + 2 else s.pc) ∧
      Frame { pc := true } s t) ∧
    (∃ t, exec (.sneImm x nn) s = .next t ∧ t.pc = (if s.readV x ≠ nn then s.pc + 2 else s.pc) ∧
      Frame { pc := true } s t) ∧
    (∃ t, exec (.seReg x y) s = .next t ∧ t.pc = (if s.readV x = s.readV y then s.pc + 2 else s.pc) ∧
      Frame { pc := true } s t) ∧
    (∃ t, exec (.sneReg x y) s = .next t ∧ t.pc = (if s.readV x ≠ s.readV y then s.pc + 2 else s.pc) ∧
      Frame { pc := true } s t)

/-- R66: an opcode of the invalid space executes as nothing; the step only moves `pc` past it (a Cycle of a started
session; log 1, log 9). -/
def Obligations.InvalidOpcodeIsANoOp : Prop :=
  (∀ (op : Word) (s : State), exec (.invalid op) s = .next s) ∧
  (∀ s : State, nextOp s = .cycle → s.mode = .running → s.pc.toNat + 1 < 4096 →
    inInvalidSpace (s.M.read s.pc.toNat ++ s.M.read (s.pc.toNat + 1)) = true →
    step s = .next s.afterTaking.fetched)

/-! ## Register loads and the ALU -/

/-- R77 and R78: the immediate is loaded, or added modulo 256 with no flag. -/
def Obligations.ImmediateLoadAndAdd : Prop :=
  ∀ (x : Nibble) (nn : Byte) (s : State),
    (∃ t, exec (.ldImm x nn) s = .next t ∧ t.readV x = nn ∧ Frame { regs := [x] } s t) ∧
    (∃ t, exec (.addImm x nn) s = .next t ∧ (t.readV x).toNat = ((s.readV x).toNat + nn.toNat) % 256 ∧
      Frame { regs := [x] } s t)

/-- R79 to R82: Vx becomes Vy, or the bitwise OR, AND or XOR of both, bit by bit; VF is not written as a flag. -/
def Obligations.MovesAndBitwiseOperations : Prop :=
  ∀ (x y : Nibble) (s : State),
    (∃ t, exec (.ldReg x y) s = .next t ∧ t.readV x = s.readV y ∧ Frame { regs := [x] } s t) ∧
    (∃ t, exec (.orReg x y) s = .next t ∧
      (∀ b : Nat, (t.readV x).getLsbD b = ((s.readV x).getLsbD b || (s.readV y).getLsbD b)) ∧
      Frame { regs := [x] } s t) ∧
    (∃ t, exec (.andReg x y) s = .next t ∧
      (∀ b : Nat, (t.readV x).getLsbD b = ((s.readV x).getLsbD b && (s.readV y).getLsbD b)) ∧
      Frame { regs := [x] } s t) ∧
    (∃ t, exec (.xorReg x y) s = .next t ∧
      (∀ b : Nat, (t.readV x).getLsbD b = ((s.readV x).getLsbD b ^^ (s.readV y).getLsbD b)) ∧
      Frame { regs := [x] } s t)

/-- R83 to R85: sums and differences modulo 256, VF = carry or NOT borrow. With x = 0xF the flag is what VF holds
(FLAG_LAST, D11, log 10). -/
def Obligations.AddAndSubtractWithFlag : Prop :=
  ∀ (x y : Nibble) (s : State),
    (∃ t, exec (.addReg x y) s = .next t ∧
      (x ≠ 0xF → (t.readV x).toNat = ((s.readV x).toNat + (s.readV y).toNat) % 256) ∧
      t.readV 0xF = (if (s.readV x).toNat + (s.readV y).toNat > 255 then 1 else 0) ∧ Frame { regs := [x, 0xF] } s t) ∧
    (∃ t, exec (.sub x y) s = .next t ∧
      (x ≠ 0xF → (t.readV x).toNat = ((s.readV x).toNat + 256 - (s.readV y).toNat) % 256) ∧
      t.readV 0xF = (if (s.readV x).toNat ≥ (s.readV y).toNat then 1 else 0) ∧ Frame { regs := [x, 0xF] } s t) ∧
    (∃ t, exec (.subn x y) s = .next t ∧
      (x ≠ 0xF → (t.readV x).toNat = ((s.readV y).toNat + 256 - (s.readV x).toNat) % 256) ∧
      t.readV 0xF = (if (s.readV y).toNat ≥ (s.readV x).toNat then 1 else 0) ∧ Frame { regs := [x, 0xF] } s t)

/-- R86 and R87: Vy shifted by one, VF = the bit shifted out. With x = 0xF the flag is what VF holds (FLAG_LAST, D11,
log 10). -/
def Obligations.ShiftsByOne : Prop :=
  ∀ (x y : Nibble) (s : State),
    (∃ t, exec (.shr x y) s = .next t ∧
      (x ≠ 0xF → (t.readV x).toNat = (s.readV y).toNat / 2) ∧
      (t.readV 0xF).toNat = (s.readV y).toNat % 2 ∧ Frame { regs := [x, 0xF] } s t) ∧
    (∃ t, exec (.shl x y) s = .next t ∧
      (x ≠ 0xF → (t.readV x).toNat = (s.readV y).toNat * 2 % 256) ∧
      (t.readV 0xF).toNat = (s.readV y).toNat / 128 ∧ Frame { regs := [x, 0xF] } s t)

/-- R88: RND masks the byte drawn, and the next draw is a fresh one. The byte is a free value, so this holds for every
byte (D23, log 3). -/
def Obligations.RandomByteIsMasked : Prop :=
  ∀ (x : Nibble) (nn : Byte) (s : State), ∃ t, exec (.rnd x nn) s = .next t ∧
    (∀ b : Nat, (t.readV x).getLsbD b = ((Config.randomByte s.randDraws).getLsbD b && nn.getLsbD b)) ∧
    t.randDraws = s.randDraws + 1 ∧ Frame { regs := [x], randDraws := true } s t

/-! ## The index register and memory transfers -/

/-- R90 and R92: I becomes nnn, or five times the whole byte Vx. -/
def Obligations.IndexLoads : Prop :=
  ∀ (nnn : Addr) (x : Nibble) (s : State),
    (∃ t, exec (.ldI nnn) s = .next t ∧ t.I.toNat = nnn.toNat ∧ Frame { I := true } s t) ∧
    (∃ t, exec (.ldF x) s = .next t ∧ t.I.toNat = (s.readV x).toNat * 5 ∧ Frame { I := true } s t)

/-- R91: I gains Vx modulo 65536, and VF says whether the unbounded sum exceeds 0x0FFF (I_WIDTH, D7, log 11; D11, log 10). -/
def Obligations.IndexAddSetsOverflowFlag : Prop :=
  ∀ (x : Nibble) (s : State), ∃ t, exec (.addI x) s = .next t ∧
    t.I.toNat = (s.I.toNat + (s.readV x).toNat) % 65536 ∧
    t.readV 0xF = (if s.I.toNat + (s.readV x).toNat > 0x0FFF then 1 else 0) ∧
    Frame { I := true, regs := [0xF] } s t

/-- R93: the decimal digits of Vx at I, I+1 and I+2; outside memory it halts and writes nothing (the halt is the spec's
decision D2). Memory must be canonical, which is an invariant (MemoryStaysCanonical). -/
def Obligations.DecimalDigitsAreStored : Prop :=
  ∀ (x : Nibble) (s : State),
    (s.M.wf → s.I.toNat + 2 < 4096 → ∃ t, exec (.ldB x) s = .next t ∧
      (t.M.read s.I.toNat).toNat = (s.readV x).toNat / 100 ∧
      (t.M.read (s.I.toNat + 1)).toNat = (s.readV x).toNat / 10 % 10 ∧
      (t.M.read (s.I.toNat + 2)).toNat = (s.readV x).toNat % 10 ∧
      Frame { stored := (s.I.toNat, 3) } s t) ∧
    (4096 ≤ s.I.toNat + 2 → exec (.ldB x) s = .next (s.haltedWith
      { cause := .outOfBoundsMemoryAccess, instrAt := s.pc - 2, opcode := some (encode (.ldB x)),
        addr := some (max s.I.toNat 4096) }))

/-- R94: V0 to Vx at I and up, I unchanged (LOADSTORE_INCREMENTS_I, D9, log 12); outside memory it halts and writes nothing
(D2). Memory must be canonical, which is an invariant (MemoryStaysCanonical). -/
def Obligations.RegistersAreStored : Prop :=
  ∀ (x : Nibble) (s : State),
    (s.M.wf → s.I.toNat + x.toNat < 4096 → ∃ t, exec (.ldStore x) s = .next t ∧
      (∀ j : Nibble, j.toNat ≤ x.toNat → t.M.read (s.I.toNat + j.toNat) = s.readV j) ∧
      Frame { stored := (s.I.toNat, x.toNat + 1) } s t) ∧
    (4096 ≤ s.I.toNat + x.toNat → exec (.ldStore x) s = .next (s.haltedWith
      { cause := .outOfBoundsMemoryAccess, instrAt := s.pc - 2, opcode := some (encode (.ldStore x)),
        addr := some (max s.I.toNat 4096) }))

/-- R95: V0 to Vx from I and up; the registers above x, I and memory unchanged (LOADSTORE_INCREMENTS_I, D9, log 12); outside
memory it halts and loads nothing (D2). -/
def Obligations.RegistersAreLoaded : Prop :=
  ∀ (x : Nibble) (s : State),
    (s.I.toNat + x.toNat < 4096 → ∃ t, exec (.ldLoad x) s = .next t ∧
      (∀ j : Nibble, j.toNat ≤ x.toNat → t.readV j = s.M.read (s.I.toNat + j.toNat)) ∧
      (∀ j : Nibble, x.toNat < j.toNat → t.readV j = s.readV j) ∧
      Frame { regs := (List.range (x.toNat + 1)).map (BitVec.ofNat 4) } s t) ∧
    (4096 ≤ s.I.toNat + x.toNat → exec (.ldLoad x) s = .next (s.haltedWith
      { cause := .outOfBoundsMemoryAccess, instrAt := s.pc - 2, opcode := some (encode (.ldLoad x)),
        addr := some (max s.I.toNat 4096) }))

/-! ## Display, keyboard and timers -/

/-- R96: CLS turns every pixel off and emits Clear. -/
def Obligations.ClearTurnsEveryPixelOff : Prop :=
  ∀ s : State, ∃ t, exec .cls s = .next t ∧ (∀ row col, t.FB.pixel row col = false) ∧
    t.trace = s.trace ++ [.clear] ∧ Frame { FB := true, trace := true } s t

/-- R97, R121: DRW draws the n bytes at I. A pixel is on afterwards exactly when it was on or is one the sprite sets, but not
both; VF and the event say whether some pixel went from on to off; outside memory it halts and draws nothing. Rests on the
closed Display (D16), the bit order (D17), the check before any effect (D4) and the halt (D2); log 6. -/
def Obligations.DrawXorsTheSprite : Prop :=
  ∀ (x y n : Nibble) (s : State),
    ((n = 0 ∨ s.I.toNat + n.toNat ≤ 4096) →
      ∃ t c, ∃ sprite : List Byte, exec (.drw x y n) s = .next t ∧
        sprite.length = n.toNat ∧
        (∀ (j : Nat) (h : j < sprite.length), sprite[j] = s.M.read (s.I.toNat + j)) ∧
        (∀ row col, t.FB.pixel row col = true ↔
          ¬ (s.FB.pixel row col = true ↔
            spriteSets (BitVec.ofNat 8 ((s.readV x).toNat % 64)) (BitVec.ofNat 8 ((s.readV y).toNat % 32)) sprite row col)) ∧
        (c = true ↔ ∃ row col, s.FB.pixel row col = true ∧
          spriteSets (BitVec.ofNat 8 ((s.readV x).toNat % 64)) (BitVec.ofNat 8 ((s.readV y).toNat % 32)) sprite row col) ∧
        t.readV 0xF = (if c then 1 else 0) ∧
        t.trace = s.trace ++ [.draw (BitVec.ofNat 8 ((s.readV x).toNat % 64)) (BitVec.ofNat 8 ((s.readV y).toNat % 32))
          sprite c] ∧
        Frame { regs := [0xF], FB := true, trace := true } s t) ∧
    (n ≠ 0 → 4096 < s.I.toNat + n.toNat → exec (.drw x y n) s = .next (s.haltedWith
      { cause := .outOfBoundsMemoryAccess, instrAt := s.pc - 2, opcode := some (encode (.drw x y n)),
        addr := some (max s.I.toNat 4096) }))

/-- R98 and R99: SKP and SKNP ask about the low nibble of Vx, record the answer and skip on it. The answer is a free value,
so this holds for every answer (KEY_INDEX, D12, log 13; D24, log 4). -/
def Obligations.KeySkipsFollowTheAnswer : Prop :=
  ∀ (x : Nibble) (s : State) (k : Nibble), k.toNat = (s.readV x).toNat % 16 →
    (∃ t, exec (.skp x) s = .next t ∧
      t.pc = (if Config.keyPressed s.keyReads k = true then s.pc + 2 else s.pc) ∧
      t.trace = s.trace ++ [.keyQuery k (Config.keyPressed s.keyReads k)] ∧ t.keyReads = s.keyReads + 1 ∧
      Frame { pc := true, trace := true, keyReads := true } s t) ∧
    (∃ t, exec (.sknp x) s = .next t ∧
      t.pc = (if Config.keyPressed s.keyReads k = false then s.pc + 2 else s.pc) ∧
      t.trace = s.trace ++ [.keyQuery k (Config.keyPressed s.keyReads k)] ∧ t.keyReads = s.keyReads + 1 ∧
      Frame { pc := true, trace := true, keyReads := true } s t)

/-- R100 and R101: Vx becomes DT, or DT becomes Vx; no event. -/
def Obligations.DelayTimerMoves : Prop :=
  ∀ (x : Nibble) (s : State),
    (∃ t, exec (.ldVxDt x) s = .next t ∧ t.readV x = s.DT ∧ Frame { regs := [x] } s t) ∧
    (∃ t, exec (.ldDtVx x) s = .next t ∧ t.DT = s.readV x ∧ Frame { DT := true } s t)

/-- R102: ST becomes Vx, with SoundStart exactly on 0 to nonzero and SoundStop exactly on nonzero to 0. -/
def Obligations.SoundTimerWrite : Prop :=
  ∀ (x : Nibble) (s : State), ∃ t, exec (.ldStVx x) s = .next t ∧ t.ST = s.readV x ∧
    t.trace = s.trace ++ (if s.ST = 0 ∧ s.readV x ≠ 0 then [.soundStart] else []) ++
      (if s.ST ≠ 0 ∧ s.readV x = 0 then [.soundStop] else []) ∧
    Frame { ST := true, trace := true } s t

/-- R103: Fx0A only enters the wait for its target register. -/
def Obligations.WaitForKeySuspends : Prop :=
  ∀ (x : Nibble) (s : State), ∃ t, exec (.ldVxK x) s = .next t ∧ t.mode = .awaitingKey x ∧ Frame { mode := true } s t
end

