-- ==== Sys2Proof/Laws/Memory.lean ====
section
/-! SUPPORT. Memory: every operation keeps the canonical form, and a read returns what was last written (20_memory.md R36,
R37, R47). -/

namespace Sys2Proof.Machine.Memory

/-- Every listed address of `m` is above `a`. -/
abbrev Above (m : Memory) (a : Nat) : Prop := ∀ c ∈ m, a < c.1

/-- Below every listed address, a read gives the reset contents. -/
theorem read_of_above {m : Memory} {a : Nat} (h : Above m a) : m.read a = unlisted a := by
  induction m with
  | nil => rfl
  | cons c rest ih =>
    have hc : c.1 ≠ a := Nat.ne_of_gt (h c (by simp))
    simp only [read, hc, if_false]
    exact ih fun d hd => h d (by simp [hd])

/-- The addresses a `put` lists are the ones listed before and its own. -/
theorem mem_put {m : Memory} {a : Nat} {v : Byte} {c : Host.Cell} (h : c ∈ m.put a v) :
    c ∈ m ∨ (c = (a, v) ∧ v ≠ unlisted a) := by
  induction m with
  | nil =>
    simp only [put] at h
    split at h <;> simp_all
  | cons d rest ih =>
    obtain ⟨b, w⟩ := d
    simp only [put] at h
    split at h
    · split at h
      · exact .inl h
      · rcases List.mem_cons.1 h with h | h
        · exact .inr ⟨h, by assumption⟩
        · exact .inl h
    · split at h
      · split at h
        · exact .inl (by simp [h])
        · rcases List.mem_cons.1 h with h | h
          · exact .inr ⟨h, by assumption⟩
          · exact .inl (by simp [h])
      · simp only [List.mem_cons] at h ⊢
        rcases h with h | h
        · simp [h]
        · rcases ih h with h | h <;> simp [h]

/-- `put` keeps the addresses strictly rising. -/
theorem put_sorted {m : Memory} {a : Nat} {v : Byte} (h : m.Pairwise fun p q => p.1 < q.1) :
    (m.put a v).Pairwise fun p q => p.1 < q.1 := by
  induction m with
  | nil => simp only [put]; split <;> simp
  | cons d rest ih =>
    obtain ⟨b, w⟩ := d
    rw [List.pairwise_cons] at h
    simp only [put]
    split
    · split
      · exact List.pairwise_cons.2 h
      · refine List.pairwise_cons.2 ⟨?_, List.pairwise_cons.2 h⟩
        intro c hc
        rcases List.mem_cons.1 hc with rfl | hc
        · assumption
        · exact Nat.lt_trans (by assumption) (h.1 c hc)
    · split
      · subst_vars
        split
        · exact h.2
        · exact List.pairwise_cons.2 ⟨h.1, h.2⟩
      · refine List.pairwise_cons.2 ⟨?_, ih h.2⟩
        intro c hc
        rcases mem_put hc with hc | ⟨rfl, _⟩
        · exact h.1 c hc
        · simp only; omega

/-- Memory with nothing listed is canonical. -/
theorem nil_wf : wf [] := by simp [wf]

/-- A write keeps the canonical form. -/
theorem write_wf {m : Memory} (h : m.wf) (a : Nat) (v : Byte) : (m.write a v).wf := by
  unfold write
  split
  · refine ⟨put_sorted h.1, fun c hc => ?_⟩
    rcases mem_put hc with hc | ⟨rfl, hv⟩
    · exact h.2 c hc
    · exact ⟨by assumption, hv⟩
  · exact h

/-- Writing a list of bytes keeps the canonical form. -/
theorem writeList_wf {m : Memory} (h : m.wf) (a : Nat) (bs : List Byte) : (m.writeList a bs).wf := by
  induction bs generalizing m a with
  | nil => exact h
  | cons v rest ih => exact ih (write_wf h a v) (a + 1)

/-- A read after a `put` into a list of rising addresses. -/
theorem read_put {m : Memory} (h : m.Pairwise fun p q => p.1 < q.1) (a b : Nat) (v : Byte) :
    (m.put a v).read b = if b = a then v else m.read b := by
  induction m with
  | nil =>
    by_cases hb : b = a
    · subst hb; by_cases hv : v = unlisted b <;> simp [put, read, hv]
    · by_cases hv : v = unlisted a <;> simp [put, read, hv, hb, Ne.symm hb]
  | cons d rest ih =>
    obtain ⟨c, w⟩ := d
    rw [List.pairwise_cons] at h
    have habove : ∀ {e}, e ≤ c → Above rest e := fun he p hp => Nat.lt_of_le_of_lt he (h.1 p hp)
    simp only [put]
    split
    · have hr : read ((c, w) :: rest) a = unlisted a := by
        apply read_of_above
        intro p hp
        rcases List.mem_cons.1 hp with rfl | hp
        · assumption
        · exact habove (Nat.le_of_lt (by assumption)) p hp
      split
      · by_cases hb : b = a
        · subst hb; simp_all
        · simp [hb]
      · by_cases hb : b = a
        · simp [read, hb]
        · rw [read]; simp [hb, Ne.symm hb]
    · split
      · rename_i hac
        subst hac
        split
        · by_cases hb : b = a
          · subst hb; simp [read_of_above (habove (Nat.le_refl _)), *]
          · simp [read, hb, Ne.symm hb]
        · by_cases hb : b = a
          · simp [read, hb]
          · simp [read, hb, Ne.symm hb]
      · rename_i hac
        by_cases hc : c = b
        · subst hc; simp [read, Ne.symm hac]
        · simp [read, hc, ih h.2]

/-- R37, R47: a write below 4096 sets its own byte and no other. -/
theorem read_write {m : Memory} (h : m.wf) {a : Nat} (ha : a < Config.memSize) (b : Nat) (v : Byte) :
    (m.write a v).read b = if b = a then v else m.read b := by
  simp only [write, ha, if_true, read_put h.1]

/-- A write leaves every other byte alone, canonical or not. -/
theorem read_write_of_ne (m : Memory) {a b : Nat} (hb : b ≠ a) (v : Byte) : (m.write a v).read b = m.read b := by
  unfold write
  split
  · rename_i ha
    clear ha
    induction m with
    | nil =>
      by_cases hv : v = unlisted a <;> simp [put, read, hv, Ne.symm hb]
    | cons d rest ih =>
      obtain ⟨c, w⟩ := d
      simp only [put]
      split
      · split
        · rfl
        · simp [read, Ne.symm hb]
      · split
        · rename_i hac
          subst hac
          split <;> simp [read, Ne.symm hb]
        · by_cases hc : c = b <;> simp [read, hc, ih]
  · rfl

/-- Writing a list leaves every byte outside its range alone. -/
theorem read_writeList_outside (m : Memory) (a : Nat) (bs : List Byte) {b : Nat}
    (hb : ¬ (a ≤ b ∧ b < a + bs.length)) : (m.writeList a bs).read b = m.read b := by
  induction bs generalizing m a with
  | nil => rfl
  | cons v rest ih =>
    simp only [List.length_cons] at hb
    rw [writeList, ih _ _ (by omega), read_write_of_ne _ (by omega)]

/-- Writing a list that fits memory sets each of its bytes. -/
theorem read_writeList_inside {m : Memory} (h : m.wf) {a : Nat} {bs : List Byte} (hfit : a + bs.length ≤ Config.memSize)
    {j : Nat} (hj : j < bs.length) : (m.writeList a bs).read (a + j) = bs[j] := by
  induction bs generalizing m a j with
  | nil => simp at hj
  | cons v rest ih =>
    simp only [List.length_cons, Config.memSize] at hfit hj
    rw [writeList]
    cases j with
    | zero =>
      rw [read_writeList_outside _ _ _ (by omega), Nat.add_zero, read_write h (by simp [Config.memSize]; omega)]
      simp
    | succ j =>
      have := ih (write_wf h a v) (a := a + 1) (j := j) (by simp [Config.memSize]; omega) (by omega)
      rw [show a + (j + 1) = a + 1 + j by omega, this]
      simp

@[simp] theorem readList_length (m : Memory) (a n : Nat) : (m.readList a n).length = n := by
  induction n generalizing a with
  | zero => rfl
  | succ n ih => simp [readList, ih]

/-- The bytes of a list read, one by one. -/
theorem readList_getElem (m : Memory) (a n : Nat) {j : Nat} (hj : j < n) :
    (m.readList a n)[j]'(by simpa using hj) = m.read (a + j) := by
  induction n generalizing a j with
  | zero => omega
  | succ n ih =>
    cases j with
    | zero => simp [readList]
    | succ j => simp [readList, ih (a + 1) (j := j) (by omega), Nat.add_assoc, Nat.add_comm 1 j]

end Sys2Proof.Machine.Memory
end

