-- ==== Sys2Proof/Laws/State.lean ====
section
/-! SUPPORT. One lemma per field per update of State, true by definition, so that no proof unfolds a record update; and the
register file's read after write. -/

namespace Sys2Proof.Machine.State

/-! ### `writeV` -/

@[simp] theorem writeV_V (s : State) (x : Nibble) (v : Byte) : (s.writeV x v).V = s.V.set x.toNat v x.isLt := rfl
@[simp] theorem writeV_I (s : State) (x : Nibble) (v : Byte) : (s.writeV x v).I = s.I := rfl
@[simp] theorem writeV_pc (s : State) (x : Nibble) (v : Byte) : (s.writeV x v).pc = s.pc := rfl
@[simp] theorem writeV_stack (s : State) (x : Nibble) (v : Byte) : (s.writeV x v).stack = s.stack := rfl
@[simp] theorem writeV_sp (s : State) (x : Nibble) (v : Byte) : (s.writeV x v).sp = s.sp := rfl
@[simp] theorem writeV_DT (s : State) (x : Nibble) (v : Byte) : (s.writeV x v).DT = s.DT := rfl
@[simp] theorem writeV_ST (s : State) (x : Nibble) (v : Byte) : (s.writeV x v).ST = s.ST := rfl
@[simp] theorem writeV_mode (s : State) (x : Nibble) (v : Byte) : (s.writeV x v).mode = s.mode := rfl
@[simp] theorem writeV_M (s : State) (x : Nibble) (v : Byte) : (s.writeV x v).M = s.M := rfl
@[simp] theorem writeV_FB (s : State) (x : Nibble) (v : Byte) : (s.writeV x v).FB = s.FB := rfl
@[simp] theorem writeV_trace (s : State) (x : Nibble) (v : Byte) : (s.writeV x v).trace = s.trace := rfl
@[simp] theorem writeV_session (s : State) (x : Nibble) (v : Byte) : (s.writeV x v).session = s.session := rfl
@[simp] theorem writeV_hostOps (s : State) (x : Nibble) (v : Byte) : (s.writeV x v).hostOps = s.hostOps := rfl
@[simp] theorem writeV_randDraws (s : State) (x : Nibble) (v : Byte) : (s.writeV x v).randDraws = s.randDraws := rfl
@[simp] theorem writeV_keyReads (s : State) (x : Nibble) (v : Byte) : (s.writeV x v).keyReads = s.keyReads := rfl

/-! ### `setI` -/

@[simp] theorem setI_V (s : State) (v : Word) : (s.setI v).V = s.V := rfl
@[simp] theorem setI_I (s : State) (v : Word) : (s.setI v).I = v := rfl
@[simp] theorem setI_pc (s : State) (v : Word) : (s.setI v).pc = s.pc := rfl
@[simp] theorem setI_stack (s : State) (v : Word) : (s.setI v).stack = s.stack := rfl
@[simp] theorem setI_sp (s : State) (v : Word) : (s.setI v).sp = s.sp := rfl
@[simp] theorem setI_DT (s : State) (v : Word) : (s.setI v).DT = s.DT := rfl
@[simp] theorem setI_ST (s : State) (v : Word) : (s.setI v).ST = s.ST := rfl
@[simp] theorem setI_mode (s : State) (v : Word) : (s.setI v).mode = s.mode := rfl
@[simp] theorem setI_M (s : State) (v : Word) : (s.setI v).M = s.M := rfl
@[simp] theorem setI_FB (s : State) (v : Word) : (s.setI v).FB = s.FB := rfl
@[simp] theorem setI_trace (s : State) (v : Word) : (s.setI v).trace = s.trace := rfl
@[simp] theorem setI_session (s : State) (v : Word) : (s.setI v).session = s.session := rfl
@[simp] theorem setI_hostOps (s : State) (v : Word) : (s.setI v).hostOps = s.hostOps := rfl
@[simp] theorem setI_randDraws (s : State) (v : Word) : (s.setI v).randDraws = s.randDraws := rfl
@[simp] theorem setI_keyReads (s : State) (v : Word) : (s.setI v).keyReads = s.keyReads := rfl

/-! ### `setPc` -/

@[simp] theorem setPc_V (s : State) (v : Word) : (s.setPc v).V = s.V := rfl
@[simp] theorem setPc_I (s : State) (v : Word) : (s.setPc v).I = s.I := rfl
@[simp] theorem setPc_pc (s : State) (v : Word) : (s.setPc v).pc = v := rfl
@[simp] theorem setPc_stack (s : State) (v : Word) : (s.setPc v).stack = s.stack := rfl
@[simp] theorem setPc_sp (s : State) (v : Word) : (s.setPc v).sp = s.sp := rfl
@[simp] theorem setPc_DT (s : State) (v : Word) : (s.setPc v).DT = s.DT := rfl
@[simp] theorem setPc_ST (s : State) (v : Word) : (s.setPc v).ST = s.ST := rfl
@[simp] theorem setPc_mode (s : State) (v : Word) : (s.setPc v).mode = s.mode := rfl
@[simp] theorem setPc_M (s : State) (v : Word) : (s.setPc v).M = s.M := rfl
@[simp] theorem setPc_FB (s : State) (v : Word) : (s.setPc v).FB = s.FB := rfl
@[simp] theorem setPc_trace (s : State) (v : Word) : (s.setPc v).trace = s.trace := rfl
@[simp] theorem setPc_session (s : State) (v : Word) : (s.setPc v).session = s.session := rfl
@[simp] theorem setPc_hostOps (s : State) (v : Word) : (s.setPc v).hostOps = s.hostOps := rfl
@[simp] theorem setPc_randDraws (s : State) (v : Word) : (s.setPc v).randDraws = s.randDraws := rfl
@[simp] theorem setPc_keyReads (s : State) (v : Word) : (s.setPc v).keyReads = s.keyReads := rfl

/-! ### `setDT` -/

@[simp] theorem setDT_V (s : State) (v : Byte) : (s.setDT v).V = s.V := rfl
@[simp] theorem setDT_I (s : State) (v : Byte) : (s.setDT v).I = s.I := rfl
@[simp] theorem setDT_pc (s : State) (v : Byte) : (s.setDT v).pc = s.pc := rfl
@[simp] theorem setDT_stack (s : State) (v : Byte) : (s.setDT v).stack = s.stack := rfl
@[simp] theorem setDT_sp (s : State) (v : Byte) : (s.setDT v).sp = s.sp := rfl
@[simp] theorem setDT_DT (s : State) (v : Byte) : (s.setDT v).DT = v := rfl
@[simp] theorem setDT_ST (s : State) (v : Byte) : (s.setDT v).ST = s.ST := rfl
@[simp] theorem setDT_mode (s : State) (v : Byte) : (s.setDT v).mode = s.mode := rfl
@[simp] theorem setDT_M (s : State) (v : Byte) : (s.setDT v).M = s.M := rfl
@[simp] theorem setDT_FB (s : State) (v : Byte) : (s.setDT v).FB = s.FB := rfl
@[simp] theorem setDT_trace (s : State) (v : Byte) : (s.setDT v).trace = s.trace := rfl
@[simp] theorem setDT_session (s : State) (v : Byte) : (s.setDT v).session = s.session := rfl
@[simp] theorem setDT_hostOps (s : State) (v : Byte) : (s.setDT v).hostOps = s.hostOps := rfl
@[simp] theorem setDT_randDraws (s : State) (v : Byte) : (s.setDT v).randDraws = s.randDraws := rfl
@[simp] theorem setDT_keyReads (s : State) (v : Byte) : (s.setDT v).keyReads = s.keyReads := rfl

/-! ### `setST` -/

@[simp] theorem setST_V (s : State) (v : Byte) : (s.setST v).V = s.V := rfl
@[simp] theorem setST_I (s : State) (v : Byte) : (s.setST v).I = s.I := rfl
@[simp] theorem setST_pc (s : State) (v : Byte) : (s.setST v).pc = s.pc := rfl
@[simp] theorem setST_stack (s : State) (v : Byte) : (s.setST v).stack = s.stack := rfl
@[simp] theorem setST_sp (s : State) (v : Byte) : (s.setST v).sp = s.sp := rfl
@[simp] theorem setST_DT (s : State) (v : Byte) : (s.setST v).DT = s.DT := rfl
@[simp] theorem setST_ST (s : State) (v : Byte) : (s.setST v).ST = v := rfl
@[simp] theorem setST_mode (s : State) (v : Byte) : (s.setST v).mode = s.mode := rfl
@[simp] theorem setST_M (s : State) (v : Byte) : (s.setST v).M = s.M := rfl
@[simp] theorem setST_FB (s : State) (v : Byte) : (s.setST v).FB = s.FB := rfl
@[simp] theorem setST_trace (s : State) (v : Byte) : (s.setST v).trace = s.trace := rfl
@[simp] theorem setST_session (s : State) (v : Byte) : (s.setST v).session = s.session := rfl
@[simp] theorem setST_hostOps (s : State) (v : Byte) : (s.setST v).hostOps = s.hostOps := rfl
@[simp] theorem setST_randDraws (s : State) (v : Byte) : (s.setST v).randDraws = s.randDraws := rfl
@[simp] theorem setST_keyReads (s : State) (v : Byte) : (s.setST v).keyReads = s.keyReads := rfl

/-! ### `setMode` -/

@[simp] theorem setMode_V (s : State) (m : Mode) : (s.setMode m).V = s.V := rfl
@[simp] theorem setMode_I (s : State) (m : Mode) : (s.setMode m).I = s.I := rfl
@[simp] theorem setMode_pc (s : State) (m : Mode) : (s.setMode m).pc = s.pc := rfl
@[simp] theorem setMode_stack (s : State) (m : Mode) : (s.setMode m).stack = s.stack := rfl
@[simp] theorem setMode_sp (s : State) (m : Mode) : (s.setMode m).sp = s.sp := rfl
@[simp] theorem setMode_DT (s : State) (m : Mode) : (s.setMode m).DT = s.DT := rfl
@[simp] theorem setMode_ST (s : State) (m : Mode) : (s.setMode m).ST = s.ST := rfl
@[simp] theorem setMode_mode (s : State) (m : Mode) : (s.setMode m).mode = m := rfl
@[simp] theorem setMode_M (s : State) (m : Mode) : (s.setMode m).M = s.M := rfl
@[simp] theorem setMode_FB (s : State) (m : Mode) : (s.setMode m).FB = s.FB := rfl
@[simp] theorem setMode_trace (s : State) (m : Mode) : (s.setMode m).trace = s.trace := rfl
@[simp] theorem setMode_session (s : State) (m : Mode) : (s.setMode m).session = s.session := rfl
@[simp] theorem setMode_hostOps (s : State) (m : Mode) : (s.setMode m).hostOps = s.hostOps := rfl
@[simp] theorem setMode_randDraws (s : State) (m : Mode) : (s.setMode m).randDraws = s.randDraws := rfl
@[simp] theorem setMode_keyReads (s : State) (m : Mode) : (s.setMode m).keyReads = s.keyReads := rfl

/-! ### `setM` -/

@[simp] theorem setM_V (s : State) (m : Memory) : (s.setM m).V = s.V := rfl
@[simp] theorem setM_I (s : State) (m : Memory) : (s.setM m).I = s.I := rfl
@[simp] theorem setM_pc (s : State) (m : Memory) : (s.setM m).pc = s.pc := rfl
@[simp] theorem setM_stack (s : State) (m : Memory) : (s.setM m).stack = s.stack := rfl
@[simp] theorem setM_sp (s : State) (m : Memory) : (s.setM m).sp = s.sp := rfl
@[simp] theorem setM_DT (s : State) (m : Memory) : (s.setM m).DT = s.DT := rfl
@[simp] theorem setM_ST (s : State) (m : Memory) : (s.setM m).ST = s.ST := rfl
@[simp] theorem setM_mode (s : State) (m : Memory) : (s.setM m).mode = s.mode := rfl
@[simp] theorem setM_M (s : State) (m : Memory) : (s.setM m).M = m := rfl
@[simp] theorem setM_FB (s : State) (m : Memory) : (s.setM m).FB = s.FB := rfl
@[simp] theorem setM_trace (s : State) (m : Memory) : (s.setM m).trace = s.trace := rfl
@[simp] theorem setM_session (s : State) (m : Memory) : (s.setM m).session = s.session := rfl
@[simp] theorem setM_hostOps (s : State) (m : Memory) : (s.setM m).hostOps = s.hostOps := rfl
@[simp] theorem setM_randDraws (s : State) (m : Memory) : (s.setM m).randDraws = s.randDraws := rfl
@[simp] theorem setM_keyReads (s : State) (m : Memory) : (s.setM m).keyReads = s.keyReads := rfl

/-! ### `setFB` -/

@[simp] theorem setFB_V (s : State) (fb : FrameBuffer) : (s.setFB fb).V = s.V := rfl
@[simp] theorem setFB_I (s : State) (fb : FrameBuffer) : (s.setFB fb).I = s.I := rfl
@[simp] theorem setFB_pc (s : State) (fb : FrameBuffer) : (s.setFB fb).pc = s.pc := rfl
@[simp] theorem setFB_stack (s : State) (fb : FrameBuffer) : (s.setFB fb).stack = s.stack := rfl
@[simp] theorem setFB_sp (s : State) (fb : FrameBuffer) : (s.setFB fb).sp = s.sp := rfl
@[simp] theorem setFB_DT (s : State) (fb : FrameBuffer) : (s.setFB fb).DT = s.DT := rfl
@[simp] theorem setFB_ST (s : State) (fb : FrameBuffer) : (s.setFB fb).ST = s.ST := rfl
@[simp] theorem setFB_mode (s : State) (fb : FrameBuffer) : (s.setFB fb).mode = s.mode := rfl
@[simp] theorem setFB_M (s : State) (fb : FrameBuffer) : (s.setFB fb).M = s.M := rfl
@[simp] theorem setFB_FB (s : State) (fb : FrameBuffer) : (s.setFB fb).FB = fb := rfl
@[simp] theorem setFB_trace (s : State) (fb : FrameBuffer) : (s.setFB fb).trace = s.trace := rfl
@[simp] theorem setFB_session (s : State) (fb : FrameBuffer) : (s.setFB fb).session = s.session := rfl
@[simp] theorem setFB_hostOps (s : State) (fb : FrameBuffer) : (s.setFB fb).hostOps = s.hostOps := rfl
@[simp] theorem setFB_randDraws (s : State) (fb : FrameBuffer) : (s.setFB fb).randDraws = s.randDraws := rfl
@[simp] theorem setFB_keyReads (s : State) (fb : FrameBuffer) : (s.setFB fb).keyReads = s.keyReads := rfl

/-! ### `emit` -/

@[simp] theorem emit_V (s : State) (e : Event) : (s.emit e).V = s.V := rfl
@[simp] theorem emit_I (s : State) (e : Event) : (s.emit e).I = s.I := rfl
@[simp] theorem emit_pc (s : State) (e : Event) : (s.emit e).pc = s.pc := rfl
@[simp] theorem emit_stack (s : State) (e : Event) : (s.emit e).stack = s.stack := rfl
@[simp] theorem emit_sp (s : State) (e : Event) : (s.emit e).sp = s.sp := rfl
@[simp] theorem emit_DT (s : State) (e : Event) : (s.emit e).DT = s.DT := rfl
@[simp] theorem emit_ST (s : State) (e : Event) : (s.emit e).ST = s.ST := rfl
@[simp] theorem emit_mode (s : State) (e : Event) : (s.emit e).mode = s.mode := rfl
@[simp] theorem emit_M (s : State) (e : Event) : (s.emit e).M = s.M := rfl
@[simp] theorem emit_FB (s : State) (e : Event) : (s.emit e).FB = s.FB := rfl
@[simp] theorem emit_trace (s : State) (e : Event) : (s.emit e).trace = s.trace ++ [e] := rfl
@[simp] theorem emit_session (s : State) (e : Event) : (s.emit e).session = s.session := rfl
@[simp] theorem emit_hostOps (s : State) (e : Event) : (s.emit e).hostOps = s.hostOps := rfl
@[simp] theorem emit_randDraws (s : State) (e : Event) : (s.emit e).randDraws = s.randDraws := rfl
@[simp] theorem emit_keyReads (s : State) (e : Event) : (s.emit e).keyReads = s.keyReads := rfl

/-! ### `setSession` -/

@[simp] theorem setSession_V (s : State) (p : Session) : (s.setSession p).V = s.V := rfl
@[simp] theorem setSession_I (s : State) (p : Session) : (s.setSession p).I = s.I := rfl
@[simp] theorem setSession_pc (s : State) (p : Session) : (s.setSession p).pc = s.pc := rfl
@[simp] theorem setSession_stack (s : State) (p : Session) : (s.setSession p).stack = s.stack := rfl
@[simp] theorem setSession_sp (s : State) (p : Session) : (s.setSession p).sp = s.sp := rfl
@[simp] theorem setSession_DT (s : State) (p : Session) : (s.setSession p).DT = s.DT := rfl
@[simp] theorem setSession_ST (s : State) (p : Session) : (s.setSession p).ST = s.ST := rfl
@[simp] theorem setSession_mode (s : State) (p : Session) : (s.setSession p).mode = s.mode := rfl
@[simp] theorem setSession_M (s : State) (p : Session) : (s.setSession p).M = s.M := rfl
@[simp] theorem setSession_FB (s : State) (p : Session) : (s.setSession p).FB = s.FB := rfl
@[simp] theorem setSession_trace (s : State) (p : Session) : (s.setSession p).trace = s.trace := rfl
@[simp] theorem setSession_session (s : State) (p : Session) : (s.setSession p).session = p := rfl
@[simp] theorem setSession_hostOps (s : State) (p : Session) : (s.setSession p).hostOps = s.hostOps := rfl
@[simp] theorem setSession_randDraws (s : State) (p : Session) : (s.setSession p).randDraws = s.randDraws := rfl
@[simp] theorem setSession_keyReads (s : State) (p : Session) : (s.setSession p).keyReads = s.keyReads := rfl

/-! ### `setHostOps` -/

@[simp] theorem setHostOps_V (s : State) (ops : List HostOp) : (s.setHostOps ops).V = s.V := rfl
@[simp] theorem setHostOps_I (s : State) (ops : List HostOp) : (s.setHostOps ops).I = s.I := rfl
@[simp] theorem setHostOps_pc (s : State) (ops : List HostOp) : (s.setHostOps ops).pc = s.pc := rfl
@[simp] theorem setHostOps_stack (s : State) (ops : List HostOp) : (s.setHostOps ops).stack = s.stack := rfl
@[simp] theorem setHostOps_sp (s : State) (ops : List HostOp) : (s.setHostOps ops).sp = s.sp := rfl
@[simp] theorem setHostOps_DT (s : State) (ops : List HostOp) : (s.setHostOps ops).DT = s.DT := rfl
@[simp] theorem setHostOps_ST (s : State) (ops : List HostOp) : (s.setHostOps ops).ST = s.ST := rfl
@[simp] theorem setHostOps_mode (s : State) (ops : List HostOp) : (s.setHostOps ops).mode = s.mode := rfl
@[simp] theorem setHostOps_M (s : State) (ops : List HostOp) : (s.setHostOps ops).M = s.M := rfl
@[simp] theorem setHostOps_FB (s : State) (ops : List HostOp) : (s.setHostOps ops).FB = s.FB := rfl
@[simp] theorem setHostOps_trace (s : State) (ops : List HostOp) : (s.setHostOps ops).trace = s.trace := rfl
@[simp] theorem setHostOps_session (s : State) (ops : List HostOp) : (s.setHostOps ops).session = s.session := rfl
@[simp] theorem setHostOps_hostOps (s : State) (ops : List HostOp) : (s.setHostOps ops).hostOps = ops := rfl
@[simp] theorem setHostOps_randDraws (s : State) (ops : List HostOp) : (s.setHostOps ops).randDraws = s.randDraws := rfl
@[simp] theorem setHostOps_keyReads (s : State) (ops : List HostOp) : (s.setHostOps ops).keyReads = s.keyReads := rfl

/-! ### `countDraw` -/

@[simp] theorem countDraw_V (s : State) : s.countDraw.V = s.V := rfl
@[simp] theorem countDraw_I (s : State) : s.countDraw.I = s.I := rfl
@[simp] theorem countDraw_pc (s : State) : s.countDraw.pc = s.pc := rfl
@[simp] theorem countDraw_stack (s : State) : s.countDraw.stack = s.stack := rfl
@[simp] theorem countDraw_sp (s : State) : s.countDraw.sp = s.sp := rfl
@[simp] theorem countDraw_DT (s : State) : s.countDraw.DT = s.DT := rfl
@[simp] theorem countDraw_ST (s : State) : s.countDraw.ST = s.ST := rfl
@[simp] theorem countDraw_mode (s : State) : s.countDraw.mode = s.mode := rfl
@[simp] theorem countDraw_M (s : State) : s.countDraw.M = s.M := rfl
@[simp] theorem countDraw_FB (s : State) : s.countDraw.FB = s.FB := rfl
@[simp] theorem countDraw_trace (s : State) : s.countDraw.trace = s.trace := rfl
@[simp] theorem countDraw_session (s : State) : s.countDraw.session = s.session := rfl
@[simp] theorem countDraw_hostOps (s : State) : s.countDraw.hostOps = s.hostOps := rfl
@[simp] theorem countDraw_randDraws (s : State) : s.countDraw.randDraws = s.randDraws + 1 := rfl
@[simp] theorem countDraw_keyReads (s : State) : s.countDraw.keyReads = s.keyReads := rfl

/-! ### `countKeyRead` -/

@[simp] theorem countKeyRead_V (s : State) : s.countKeyRead.V = s.V := rfl
@[simp] theorem countKeyRead_I (s : State) : s.countKeyRead.I = s.I := rfl
@[simp] theorem countKeyRead_pc (s : State) : s.countKeyRead.pc = s.pc := rfl
@[simp] theorem countKeyRead_stack (s : State) : s.countKeyRead.stack = s.stack := rfl
@[simp] theorem countKeyRead_sp (s : State) : s.countKeyRead.sp = s.sp := rfl
@[simp] theorem countKeyRead_DT (s : State) : s.countKeyRead.DT = s.DT := rfl
@[simp] theorem countKeyRead_ST (s : State) : s.countKeyRead.ST = s.ST := rfl
@[simp] theorem countKeyRead_mode (s : State) : s.countKeyRead.mode = s.mode := rfl
@[simp] theorem countKeyRead_M (s : State) : s.countKeyRead.M = s.M := rfl
@[simp] theorem countKeyRead_FB (s : State) : s.countKeyRead.FB = s.FB := rfl
@[simp] theorem countKeyRead_trace (s : State) : s.countKeyRead.trace = s.trace := rfl
@[simp] theorem countKeyRead_session (s : State) : s.countKeyRead.session = s.session := rfl
@[simp] theorem countKeyRead_hostOps (s : State) : s.countKeyRead.hostOps = s.hostOps := rfl
@[simp] theorem countKeyRead_randDraws (s : State) : s.countKeyRead.randDraws = s.randDraws := rfl
@[simp] theorem countKeyRead_keyReads (s : State) : s.countKeyRead.keyReads = s.keyReads + 1 := rfl

/-! ### `advance` -/

@[simp] theorem advance_V (s : State) : s.advance.V = s.V := rfl
@[simp] theorem advance_I (s : State) : s.advance.I = s.I := rfl
@[simp] theorem advance_pc (s : State) : s.advance.pc = s.pc + 2 := rfl
@[simp] theorem advance_stack (s : State) : s.advance.stack = s.stack := rfl
@[simp] theorem advance_sp (s : State) : s.advance.sp = s.sp := rfl
@[simp] theorem advance_DT (s : State) : s.advance.DT = s.DT := rfl
@[simp] theorem advance_ST (s : State) : s.advance.ST = s.ST := rfl
@[simp] theorem advance_mode (s : State) : s.advance.mode = s.mode := rfl
@[simp] theorem advance_M (s : State) : s.advance.M = s.M := rfl
@[simp] theorem advance_FB (s : State) : s.advance.FB = s.FB := rfl
@[simp] theorem advance_trace (s : State) : s.advance.trace = s.trace := rfl
@[simp] theorem advance_session (s : State) : s.advance.session = s.session := rfl
@[simp] theorem advance_hostOps (s : State) : s.advance.hostOps = s.hostOps := rfl
@[simp] theorem advance_randDraws (s : State) : s.advance.randDraws = s.randDraws := rfl
@[simp] theorem advance_keyReads (s : State) : s.advance.keyReads = s.keyReads := rfl

/-! ### `push` -/

@[simp] theorem push_V (s : State) (v : Word) (h : s.sp.val < Config.stackDepth) : (s.push v h).V = s.V := rfl
@[simp] theorem push_I (s : State) (v : Word) (h : s.sp.val < Config.stackDepth) : (s.push v h).I = s.I := rfl
@[simp] theorem push_pc (s : State) (v : Word) (h : s.sp.val < Config.stackDepth) : (s.push v h).pc = s.pc := rfl
@[simp] theorem push_stack (s : State) (v : Word) (h : s.sp.val < Config.stackDepth) : (s.push v h).stack = s.stack.set s.sp.val v h := rfl
@[simp] theorem push_sp (s : State) (v : Word) (h : s.sp.val < Config.stackDepth) : (s.push v h).sp = ⟨s.sp.val + 1, Nat.succ_lt_succ h⟩ := rfl
@[simp] theorem push_DT (s : State) (v : Word) (h : s.sp.val < Config.stackDepth) : (s.push v h).DT = s.DT := rfl
@[simp] theorem push_ST (s : State) (v : Word) (h : s.sp.val < Config.stackDepth) : (s.push v h).ST = s.ST := rfl
@[simp] theorem push_mode (s : State) (v : Word) (h : s.sp.val < Config.stackDepth) : (s.push v h).mode = s.mode := rfl
@[simp] theorem push_M (s : State) (v : Word) (h : s.sp.val < Config.stackDepth) : (s.push v h).M = s.M := rfl
@[simp] theorem push_FB (s : State) (v : Word) (h : s.sp.val < Config.stackDepth) : (s.push v h).FB = s.FB := rfl
@[simp] theorem push_trace (s : State) (v : Word) (h : s.sp.val < Config.stackDepth) : (s.push v h).trace = s.trace := rfl
@[simp] theorem push_session (s : State) (v : Word) (h : s.sp.val < Config.stackDepth) : (s.push v h).session = s.session := rfl
@[simp] theorem push_hostOps (s : State) (v : Word) (h : s.sp.val < Config.stackDepth) : (s.push v h).hostOps = s.hostOps := rfl
@[simp] theorem push_randDraws (s : State) (v : Word) (h : s.sp.val < Config.stackDepth) : (s.push v h).randDraws = s.randDraws := rfl
@[simp] theorem push_keyReads (s : State) (v : Word) (h : s.sp.val < Config.stackDepth) : (s.push v h).keyReads = s.keyReads := rfl

/-! ### `dropTop` -/

@[simp] theorem dropTop_V (s : State) : s.dropTop.V = s.V := rfl
@[simp] theorem dropTop_I (s : State) : s.dropTop.I = s.I := rfl
@[simp] theorem dropTop_pc (s : State) : s.dropTop.pc = s.pc := rfl
@[simp] theorem dropTop_stack (s : State) : s.dropTop.stack = s.stack := rfl
@[simp] theorem dropTop_DT (s : State) : s.dropTop.DT = s.DT := rfl
@[simp] theorem dropTop_ST (s : State) : s.dropTop.ST = s.ST := rfl
@[simp] theorem dropTop_mode (s : State) : s.dropTop.mode = s.mode := rfl
@[simp] theorem dropTop_M (s : State) : s.dropTop.M = s.M := rfl
@[simp] theorem dropTop_FB (s : State) : s.dropTop.FB = s.FB := rfl
@[simp] theorem dropTop_trace (s : State) : s.dropTop.trace = s.trace := rfl
@[simp] theorem dropTop_session (s : State) : s.dropTop.session = s.session := rfl
@[simp] theorem dropTop_hostOps (s : State) : s.dropTop.hostOps = s.hostOps := rfl
@[simp] theorem dropTop_randDraws (s : State) : s.dropTop.randDraws = s.randDraws := rfl
@[simp] theorem dropTop_keyReads (s : State) : s.dropTop.keyReads = s.keyReads := rfl

/-! ### `raise` -/

@[simp] theorem raise_V (s : State) (rec : HaltRecord) : (s.raise rec).V = s.V := rfl
@[simp] theorem raise_I (s : State) (rec : HaltRecord) : (s.raise rec).I = s.I := rfl
@[simp] theorem raise_pc (s : State) (rec : HaltRecord) : (s.raise rec).pc = s.pc := rfl
@[simp] theorem raise_stack (s : State) (rec : HaltRecord) : (s.raise rec).stack = s.stack := rfl
@[simp] theorem raise_sp (s : State) (rec : HaltRecord) : (s.raise rec).sp = s.sp := rfl
@[simp] theorem raise_DT (s : State) (rec : HaltRecord) : (s.raise rec).DT = s.DT := rfl
@[simp] theorem raise_ST (s : State) (rec : HaltRecord) : (s.raise rec).ST = s.ST := rfl
@[simp] theorem raise_mode (s : State) (rec : HaltRecord) : (s.raise rec).mode = .halted rec := rfl
@[simp] theorem raise_M (s : State) (rec : HaltRecord) : (s.raise rec).M = s.M := rfl
@[simp] theorem raise_FB (s : State) (rec : HaltRecord) : (s.raise rec).FB = s.FB := rfl
@[simp] theorem raise_trace (s : State) (rec : HaltRecord) : (s.raise rec).trace = s.trace ++ [.halt rec] := rfl
@[simp] theorem raise_session (s : State) (rec : HaltRecord) : (s.raise rec).session = s.session := rfl
@[simp] theorem raise_hostOps (s : State) (rec : HaltRecord) : (s.raise rec).hostOps = s.hostOps := rfl
@[simp] theorem raise_randDraws (s : State) (rec : HaltRecord) : (s.raise rec).randDraws = s.randDraws := rfl
@[simp] theorem raise_keyReads (s : State) (rec : HaltRecord) : (s.raise rec).keyReads = s.keyReads := rfl

/-! ### Register reads -/

@[simp] theorem setI_readV (s : State) (v : Word) (r : Nibble) : (s.setI v).readV r = s.readV r := rfl
@[simp] theorem setPc_readV (s : State) (v : Word) (r : Nibble) : (s.setPc v).readV r = s.readV r := rfl
@[simp] theorem setDT_readV (s : State) (v : Byte) (r : Nibble) : (s.setDT v).readV r = s.readV r := rfl
@[simp] theorem setST_readV (s : State) (v : Byte) (r : Nibble) : (s.setST v).readV r = s.readV r := rfl
@[simp] theorem setMode_readV (s : State) (m : Mode) (r : Nibble) : (s.setMode m).readV r = s.readV r := rfl
@[simp] theorem setM_readV (s : State) (m : Memory) (r : Nibble) : (s.setM m).readV r = s.readV r := rfl
@[simp] theorem setFB_readV (s : State) (fb : FrameBuffer) (r : Nibble) : (s.setFB fb).readV r = s.readV r := rfl
@[simp] theorem emit_readV (s : State) (e : Event) (r : Nibble) : (s.emit e).readV r = s.readV r := rfl
@[simp] theorem setSession_readV (s : State) (p : Session) (r : Nibble) : (s.setSession p).readV r = s.readV r := rfl
@[simp] theorem setHostOps_readV (s : State) (ops : List HostOp) (r : Nibble) : (s.setHostOps ops).readV r = s.readV r := rfl
@[simp] theorem countDraw_readV (s : State) (r : Nibble) : s.countDraw.readV r = s.readV r := rfl
@[simp] theorem countKeyRead_readV (s : State) (r : Nibble) : s.countKeyRead.readV r = s.readV r := rfl
@[simp] theorem advance_readV (s : State) (r : Nibble) : s.advance.readV r = s.readV r := rfl
@[simp] theorem push_readV (s : State) (v : Word) (h : s.sp.val < Config.stackDepth) (r : Nibble) : (s.push v h).readV r = s.readV r := rfl
@[simp] theorem dropTop_readV (s : State) (r : Nibble) : s.dropTop.readV r = s.readV r := rfl
@[simp] theorem raise_readV (s : State) (rec : HaltRecord) (r : Nibble) : (s.raise rec).readV r = s.readV r := rfl

/-- Reading a register after a write (R14). -/
theorem readV_writeV (s : State) (x r : Nibble) (v : Byte) :
    (s.writeV x v).readV r = if r = x then v else s.readV r := by
  unfold readV writeV
  simp only [Vector.getElem_set]
  by_cases h : r = x
  · simp [h]
  · have : x.toNat ≠ r.toNat := fun e => h (BitVec.eq_of_toNat_eq e.symm)
    simp [h, this]

@[simp] theorem readV_writeV_self (s : State) (x : Nibble) (v : Byte) : (s.writeV x v).readV x = v := by
  simp [readV_writeV]

@[simp] theorem readV_writeV_of_ne (s : State) {x r : Nibble} (v : Byte) (h : r ≠ x) :
    (s.writeV x v).readV r = s.readV r := by
  simp [readV_writeV, h]

@[simp] theorem dropTop_sp_val (s : State) : s.dropTop.sp.val = s.sp.val - 1 := rfl

/-- Two states with the same fields are equal, registers compared by `readV`. -/
theorem ext_readV {s t : State} (hV : ∀ r, s.readV r = t.readV r) (hrest : s = { t with V := s.V }) : s = t := by
  have hv : s.V = t.V := by
    apply Vector.ext
    intro i hi
    have h := hV (BitVec.ofNat 4 i)
    have e : (BitVec.ofNat 4 i).toNat = i := by simp; omega
    simpa [readV, e] using h
  rw [hrest, hv]

/-! ### Composite updates -/

/-- A conditional skip changes `pc` only (R67). -/
theorem skipIf_eq (s : State) (b : Bool) : s.skipIf b = s.setPc (if b then s.pc + 2 else s.pc) := by
  cases b <;> rfl

@[simp] theorem skipIf_pc (s : State) (b : Bool) : (s.skipIf b).pc = if b then s.pc + 2 else s.pc := by
  cases b <;> rfl

@[simp] theorem skipIf_V (s : State) (b : Bool) : (s.skipIf b).V = s.V := by cases b <;> rfl
@[simp] theorem skipIf_I (s : State) (b : Bool) : (s.skipIf b).I = s.I := by cases b <;> rfl
@[simp] theorem skipIf_stack (s : State) (b : Bool) : (s.skipIf b).stack = s.stack := by cases b <;> rfl
@[simp] theorem skipIf_sp (s : State) (b : Bool) : (s.skipIf b).sp = s.sp := by cases b <;> rfl
@[simp] theorem skipIf_DT (s : State) (b : Bool) : (s.skipIf b).DT = s.DT := by cases b <;> rfl
@[simp] theorem skipIf_ST (s : State) (b : Bool) : (s.skipIf b).ST = s.ST := by cases b <;> rfl
@[simp] theorem skipIf_mode (s : State) (b : Bool) : (s.skipIf b).mode = s.mode := by cases b <;> rfl
@[simp] theorem skipIf_M (s : State) (b : Bool) : (s.skipIf b).M = s.M := by cases b <;> rfl
@[simp] theorem skipIf_FB (s : State) (b : Bool) : (s.skipIf b).FB = s.FB := by cases b <;> rfl
@[simp] theorem skipIf_trace (s : State) (b : Bool) : (s.skipIf b).trace = s.trace := by cases b <;> rfl
@[simp] theorem skipIf_session (s : State) (b : Bool) : (s.skipIf b).session = s.session := by cases b <;> rfl
@[simp] theorem skipIf_hostOps (s : State) (b : Bool) : (s.skipIf b).hostOps = s.hostOps := by cases b <;> rfl
@[simp] theorem skipIf_randDraws (s : State) (b : Bool) : (s.skipIf b).randDraws = s.randDraws := by cases b <;> rfl
@[simp] theorem skipIf_keyReads (s : State) (b : Bool) : (s.skipIf b).keyReads = s.keyReads := by cases b <;> rfl
@[simp] theorem skipIf_readV (s : State) (b : Bool) (r : Nibble) : (s.skipIf b).readV r = s.readV r := by cases b <;> rfl

/-- A result and its flag: VF holds the flag, even when VF is the destination (R15). -/
theorem readV_writeResult (s : State) (x r : Nibble) (v : Byte) (b : Bool) :
    (s.writeResult x v b).readV r = if r = vf then flagByte b else if r = x then v else s.readV r := by
  simp only [writeResult, writeFlag, readV_writeV]

/-- A result and its flag change registers only. -/
theorem writeResult_eq (s : State) (x : Nibble) (v : Byte) (b : Bool) :
    s.writeResult x v b = { s with V := (s.writeResult x v b).V } := rfl

/-- What writing ST can do (R102, R113, R120): the new value, and at most one audio event. -/
theorem writeST_cases (s : State) (v : Byte) :
    (s.ST = 0 ∧ v ≠ 0 ∧ s.writeST v = (s.setST v).emit .soundStart) ∨
    (s.ST ≠ 0 ∧ v = 0 ∧ s.writeST v = (s.setST v).emit .soundStop) ∨
    ((s.ST = 0 ↔ v = 0) ∧ s.writeST v = s.setST v) := by
  unfold writeST
  by_cases h : s.ST = 0 <;> by_cases h' : v = 0
  · exact .inr (.inr ⟨iff_of_true h h', by rw [if_pos h, if_pos h']⟩)
  · exact .inl ⟨h, h', by rw [if_pos h, if_neg h']⟩
  · exact .inr (.inl ⟨h, h', by rw [if_neg h, if_pos h']⟩)
  · exact .inr (.inr ⟨iff_of_false h h', by rw [if_neg h, if_neg h']⟩)

@[simp] theorem writeST_V (s : State) (v : Byte) : (s.writeST v).V = s.V := by unfold writeST; split <;> split <;> rfl
@[simp] theorem writeST_I (s : State) (v : Byte) : (s.writeST v).I = s.I := by unfold writeST; split <;> split <;> rfl
@[simp] theorem writeST_pc (s : State) (v : Byte) : (s.writeST v).pc = s.pc := by unfold writeST; split <;> split <;> rfl
@[simp] theorem writeST_stack (s : State) (v : Byte) : (s.writeST v).stack = s.stack := by unfold writeST; split <;> split <;> rfl
@[simp] theorem writeST_sp (s : State) (v : Byte) : (s.writeST v).sp = s.sp := by unfold writeST; split <;> split <;> rfl
@[simp] theorem writeST_DT (s : State) (v : Byte) : (s.writeST v).DT = s.DT := by unfold writeST; split <;> split <;> rfl
@[simp] theorem writeST_mode (s : State) (v : Byte) : (s.writeST v).mode = s.mode := by unfold writeST; split <;> split <;> rfl
@[simp] theorem writeST_M (s : State) (v : Byte) : (s.writeST v).M = s.M := by unfold writeST; split <;> split <;> rfl
@[simp] theorem writeST_FB (s : State) (v : Byte) : (s.writeST v).FB = s.FB := by unfold writeST; split <;> split <;> rfl
@[simp] theorem writeST_session (s : State) (v : Byte) : (s.writeST v).session = s.session := by unfold writeST; split <;> split <;> rfl
@[simp] theorem writeST_hostOps (s : State) (v : Byte) : (s.writeST v).hostOps = s.hostOps := by unfold writeST; split <;> split <;> rfl
@[simp] theorem writeST_randDraws (s : State) (v : Byte) : (s.writeST v).randDraws = s.randDraws := by unfold writeST; split <;> split <;> rfl
@[simp] theorem writeST_keyReads (s : State) (v : Byte) : (s.writeST v).keyReads = s.keyReads := by unfold writeST; split <;> split <;> rfl
@[simp] theorem writeST_ST (s : State) (v : Byte) : (s.writeST v).ST = v := by unfold writeST; split <;> split <;> rfl
@[simp] theorem writeST_readV (s : State) (v : Byte) (r : Nibble) : (s.writeST v).readV r = s.readV r := by unfold writeST; split <;> split <;> rfl

end Sys2Proof.Machine.State
end

