-- ==== Sys2Proof/Laws/Ops.lean ====
section
/-! SUPPORT. What the shared operations can do: the range check (20_memory.md R38), the check in front of an instruction
(R39), entering a halt (60_exceptions.md R105), the fetch (40_cycle.md R64), the load of registers (43_index_memory.md R95), and
the two ways a LoadProgram is refused (20_memory.md R43). -/

namespace Sys2Proof.Machine

/-- R38: the check passes exactly when the range is empty or ends inside memory. -/
theorem checkRange_eq_none {a n : Nat} : checkRange a n = none ↔ n = 0 ∨ a + n ≤ 4096 := by
  unfold checkRange
  by_cases h : n = 0 ∨ a + n ≤ Config.memSize
  · rw [if_pos h]; exact iff_of_true rfl h
  · rw [if_neg h]; exact iff_of_false (by simp) h

/-- R38: a failed check names the lowest address outside memory. -/
theorem checkRange_eq_some {a n : Nat} (h : ¬ (n = 0 ∨ a + n ≤ 4096)) : checkRange a n = some (max a 4096) := by
  unfold checkRange
  rw [if_neg h]

namespace State

/-- Entering a halt is `haltedWith` (R105). -/
theorem raise_eq (s : State) (r : HaltRecord) : s.raise r = s.haltedWith r := rfl

/-- A halt of an instruction (R65, R105). -/
theorem raiseFrom_eq (s : State) (i : Instr) (c : Cause) (a : Option Nat) :
    s.raiseFrom i c a = s.haltedWith { cause := c, instrAt := s.pc - 2, opcode := some (encode i), addr := a } := rfl

/-- R39: with the range inside memory, the instruction goes on. -/
theorem withRange_pass {s rest : State} {i : Instr} {n : Nat} (h : n = 0 ∨ s.I.toNat + n ≤ 4096) :
    s.withRange i n rest = rest := by
  unfold withRange
  rw [checkRange_eq_none.2 h]

/-- R39, R107: with the range not inside memory, it halts with nothing else changed. -/
theorem withRange_fail {s rest : State} {i : Instr} {n : Nat} (h : ¬ (n = 0 ∨ s.I.toNat + n ≤ 4096)) :
    s.withRange i n rest = s.haltedWith
      { cause := .outOfBoundsMemoryAccess, instrAt := s.pc - 2, opcode := some (encode i),
        addr := some (max s.I.toNat 4096) } := by
  unfold withRange
  rw [checkRange_eq_some h]
  rfl

/-- What the range check can do to an instruction: it goes on, or it halts. -/
theorem withRange_cases (s rest : State) (i : Instr) (n : Nat) :
    s.withRange i n rest = rest ∨ ∃ r, s.withRange i n rest = s.haltedWith r := by
  by_cases h : n = 0 ∨ s.I.toNat + n ≤ 4096
  · exact .inl (withRange_pass h)
  · exact .inr ⟨_, withRange_fail h⟩

/-- R64: the fetch reads two bytes, high byte first, exactly when both are inside memory. -/
theorem fetchWord_eq_some {s : State} (h : s.pc.toNat + 1 < 4096) :
    s.fetchWord = some (s.M.read s.pc.toNat ++ s.M.read (s.pc.toNat + 1)) := by
  unfold fetchWord
  rw [if_pos h]
  rfl

/-- R64: the fetch fails when its second byte lies outside memory. -/
theorem fetchWord_eq_none {s : State} (h : 4096 ≤ s.pc.toNat + 1) : s.fetchWord = none := by
  unfold fetchWord
  rw [if_neg (by simpa [Config.memSize] using h)]

/-- Loading registers changes registers only. -/
theorem loadRegs_eq (s : State) (n : Nat) : s.loadRegs n = { s with V := (s.loadRegs n).V } := by
  induction n with
  | zero => rfl
  | succ n ih => rw [loadRegs, ih]; rfl

/-- R95: the first `n` registers hold the bytes from `I`, the others are as before. -/
theorem readV_loadRegs (s : State) {n : Nat} (hn : n ≤ 16) (r : Nibble) :
    (s.loadRegs n).readV r = if r.toNat < n then s.M.read (s.I.toNat + r.toNat) else s.readV r := by
  induction n with
  | zero => rfl
  | succ n ih =>
    rw [loadRegs, readV_writeV, ih (by omega)]
    have e : (BitVec.ofNat 4 n).toNat = n := by simp; omega
    by_cases h : r = BitVec.ofNat 4 n
    · have : r.toNat = n := by rw [h, e]
      simp [← h, this]
    · have : r.toNat ≠ n := fun c => h (BitVec.eq_of_toNat_eq (by rw [c, e]))
      have hiff : r.toNat < n + 1 ↔ r.toNat < n := by omega
      simp [h, hiff]

/-- R94: how many bytes a store writes. -/
@[simp] theorem firstRegs_length (s : State) (n : Nat) : (s.firstRegs n).length = n := by simp [firstRegs]

/-- R94: the bytes a store writes. -/
theorem firstRegs_getElem (s : State) {n j : Nat} (hj : j < n) :
    (s.firstRegs n)[j]'(by simpa using hj) = s.readV (BitVec.ofNat 4 j) := by simp [firstRegs]

end State

/-- R93: three digits. -/
@[simp] theorem decimalDigits_length (v : Byte) : (decimalDigits v).length = 3 := rfl

/-- R43: outside the state `Reset` builds, a load is refused. -/
theorem loadProgram_notAdmitted {s : State} (h : s.session ≠ .built) (bytes : List Byte) :
    loadProgram bytes s = .refused .loadNotAdmitted := by
  unfold loadProgram
  cases hs : s.session with
  | built => exact absurd hs h
  | loaded => rfl
  | started => rfl

/-- R43: a program of more than 3584 bytes is refused. -/
theorem loadProgram_tooLong {s : State} (h : s.session = .built) {bytes : List Byte} (hl : 3584 < bytes.length) :
    loadProgram bytes s = .refused (.programTooLong bytes.length) := by
  unfold loadProgram
  rw [h]
  exact if_pos hl

/-- R43: an admitted load writes the program's bytes. -/
theorem loadProgram_admitted {s : State} (h : s.session = .built) {bytes : List Byte} (hl : bytes.length ≤ 3584) :
    loadProgram bytes s = .next ((s.setM (s.M.writeList 0x200 bytes)).setSession .loaded) := by
  unfold loadProgram
  rw [h]
  exact if_neg (Nat.not_lt.2 hl)

end Sys2Proof.Machine
end

