-- ==== Sys2Proof/Laws/PerInstr.lean ====
section
/-! SUPPORT. The family EncodeRow: the opcode an instruction encodes to is selected by the row of the opcode map that carries
its mnemonic (30_encoding.md R53, R54). One lemma per constructor. -/

namespace Sys2Proof.Laws.EncodeRow

/-- Every row with the instruction's mnemonic selects its opcode. -/
def Statement (i : Instr) : Prop :=
  ∀ row ∈ opcodeMap, row.mnemonic = i.mnemonic → row.selects (encode i) = true

/-- Mask 0xF000 leaves d1 of a layout NNN. -/
theorem mask_nnn (d1 : Nibble) (nnn : Addr) : encodeNNN d1 nnn &&& 0xF000#16 = encodeNNN d1 0 := by
  unfold encodeNNN
  apply BitVec.eq_of_getLsbD_eq
  intro i hi
  simp only [BitVec.getLsbD_and, BitVec.getLsbD_append]
  interval_cases i <;> simp

/-- Mask 0xF000 leaves d1 of a layout XNN. -/
theorem mask_xnn (d1 x : Nibble) (nn : Byte) : encodeXNN d1 x nn &&& 0xF000#16 = encodeXNN d1 0 0 := by
  unfold encodeXNN
  apply BitVec.eq_of_getLsbD_eq
  intro i hi
  simp only [BitVec.getLsbD_and, BitVec.getLsbD_append]
  interval_cases i <;> simp

/-- Mask 0xF0FF leaves d1 and nn of a layout X. -/
theorem mask_x (d1 x : Nibble) (nn : Byte) : encodeXNN d1 x nn &&& 0xF0FF#16 = encodeXNN d1 0 nn := by
  unfold encodeXNN
  apply BitVec.eq_of_getLsbD_eq
  intro i hi
  simp only [BitVec.getLsbD_and, BitVec.getLsbD_append]
  interval_cases i <;> simp

/-- Mask 0xF000 leaves d1 of a layout XYN. -/
theorem mask_xyn (d1 x y n : Nibble) : encodeXYN d1 x y n &&& 0xF000#16 = encodeXYN d1 0 0 0 := by
  unfold encodeXYN
  apply BitVec.eq_of_getLsbD_eq
  intro i hi
  simp only [BitVec.getLsbD_and, BitVec.getLsbD_append]
  interval_cases i <;> simp

/-- Mask 0xF00F leaves d1 and d4 of a layout XY. -/
theorem mask_xy (d1 x y n : Nibble) : encodeXYN d1 x y n &&& 0xF00F#16 = encodeXYN d1 0 0 n := by
  unfold encodeXYN
  apply BitVec.eq_of_getLsbD_eq
  intro i hi
  simp only [BitVec.getLsbD_and, BitVec.getLsbD_append]
  interval_cases i <;> simp

theorem cls : Statement .cls := by
  simp [Statement, opcodeMap, Instr.mnemonic, OpcodeRow.selects, encode]

theorem ret : Statement .ret := by
  simp [Statement, opcodeMap, Instr.mnemonic, OpcodeRow.selects, encode]

theorem jp (nnn : Addr) : Statement (.jp nnn) := by
  simp [Statement, opcodeMap, Instr.mnemonic, OpcodeRow.selects, encode, mask_nnn]; decide

theorem call (nnn : Addr) : Statement (.call nnn) := by
  simp [Statement, opcodeMap, Instr.mnemonic, OpcodeRow.selects, encode, mask_nnn]; decide

theorem seImm (x : Nibble) (nn : Byte) : Statement (.seImm x nn) := by
  simp [Statement, opcodeMap, Instr.mnemonic, OpcodeRow.selects, encode, mask_xnn]; decide

theorem sneImm (x : Nibble) (nn : Byte) : Statement (.sneImm x nn) := by
  simp [Statement, opcodeMap, Instr.mnemonic, OpcodeRow.selects, encode, mask_xnn]; decide

theorem seReg (x : Nibble) (y : Nibble) : Statement (.seReg x y) := by
  simp [Statement, opcodeMap, Instr.mnemonic, OpcodeRow.selects, encode, mask_xy]; decide

theorem ldImm (x : Nibble) (nn : Byte) : Statement (.ldImm x nn) := by
  simp [Statement, opcodeMap, Instr.mnemonic, OpcodeRow.selects, encode, mask_xnn]; decide

theorem addImm (x : Nibble) (nn : Byte) : Statement (.addImm x nn) := by
  simp [Statement, opcodeMap, Instr.mnemonic, OpcodeRow.selects, encode, mask_xnn]; decide

theorem ldReg (x : Nibble) (y : Nibble) : Statement (.ldReg x y) := by
  simp [Statement, opcodeMap, Instr.mnemonic, OpcodeRow.selects, encode, mask_xy]; decide

theorem orReg (x : Nibble) (y : Nibble) : Statement (.orReg x y) := by
  simp [Statement, opcodeMap, Instr.mnemonic, OpcodeRow.selects, encode, mask_xy]; decide

theorem andReg (x : Nibble) (y : Nibble) : Statement (.andReg x y) := by
  simp [Statement, opcodeMap, Instr.mnemonic, OpcodeRow.selects, encode, mask_xy]; decide

theorem xorReg (x : Nibble) (y : Nibble) : Statement (.xorReg x y) := by
  simp [Statement, opcodeMap, Instr.mnemonic, OpcodeRow.selects, encode, mask_xy]; decide

theorem addReg (x : Nibble) (y : Nibble) : Statement (.addReg x y) := by
  simp [Statement, opcodeMap, Instr.mnemonic, OpcodeRow.selects, encode, mask_xy]; decide

theorem sub (x : Nibble) (y : Nibble) : Statement (.sub x y) := by
  simp [Statement, opcodeMap, Instr.mnemonic, OpcodeRow.selects, encode, mask_xy]; decide

theorem shr (x : Nibble) (y : Nibble) : Statement (.shr x y) := by
  simp [Statement, opcodeMap, Instr.mnemonic, OpcodeRow.selects, encode, mask_xy]; decide

theorem subn (x : Nibble) (y : Nibble) : Statement (.subn x y) := by
  simp [Statement, opcodeMap, Instr.mnemonic, OpcodeRow.selects, encode, mask_xy]; decide

theorem shl (x : Nibble) (y : Nibble) : Statement (.shl x y) := by
  simp [Statement, opcodeMap, Instr.mnemonic, OpcodeRow.selects, encode, mask_xy]; decide

theorem sneReg (x : Nibble) (y : Nibble) : Statement (.sneReg x y) := by
  simp [Statement, opcodeMap, Instr.mnemonic, OpcodeRow.selects, encode, mask_xy]; decide

theorem ldI (nnn : Addr) : Statement (.ldI nnn) := by
  simp [Statement, opcodeMap, Instr.mnemonic, OpcodeRow.selects, encode, mask_nnn]; decide

theorem jpV0 (nnn : Addr) : Statement (.jpV0 nnn) := by
  simp [Statement, opcodeMap, Instr.mnemonic, OpcodeRow.selects, encode, mask_nnn]; decide

theorem rnd (x : Nibble) (nn : Byte) : Statement (.rnd x nn) := by
  simp [Statement, opcodeMap, Instr.mnemonic, OpcodeRow.selects, encode, mask_xnn]; decide

theorem drw (x : Nibble) (y : Nibble) (n : Nibble) : Statement (.drw x y n) := by
  simp [Statement, opcodeMap, Instr.mnemonic, OpcodeRow.selects, encode, mask_xyn]; decide

theorem skp (x : Nibble) : Statement (.skp x) := by
  simp [Statement, opcodeMap, Instr.mnemonic, OpcodeRow.selects, encode, mask_x]; decide

theorem sknp (x : Nibble) : Statement (.sknp x) := by
  simp [Statement, opcodeMap, Instr.mnemonic, OpcodeRow.selects, encode, mask_x]; decide

theorem ldVxDt (x : Nibble) : Statement (.ldVxDt x) := by
  simp [Statement, opcodeMap, Instr.mnemonic, OpcodeRow.selects, encode, mask_x]; decide

theorem ldVxK (x : Nibble) : Statement (.ldVxK x) := by
  simp [Statement, opcodeMap, Instr.mnemonic, OpcodeRow.selects, encode, mask_x]; decide

theorem ldDtVx (x : Nibble) : Statement (.ldDtVx x) := by
  simp [Statement, opcodeMap, Instr.mnemonic, OpcodeRow.selects, encode, mask_x]; decide

theorem ldStVx (x : Nibble) : Statement (.ldStVx x) := by
  simp [Statement, opcodeMap, Instr.mnemonic, OpcodeRow.selects, encode, mask_x]; decide

theorem addI (x : Nibble) : Statement (.addI x) := by
  simp [Statement, opcodeMap, Instr.mnemonic, OpcodeRow.selects, encode, mask_x]; decide

theorem ldF (x : Nibble) : Statement (.ldF x) := by
  simp [Statement, opcodeMap, Instr.mnemonic, OpcodeRow.selects, encode, mask_x]; decide

theorem ldB (x : Nibble) : Statement (.ldB x) := by
  simp [Statement, opcodeMap, Instr.mnemonic, OpcodeRow.selects, encode, mask_x]; decide

theorem ldStore (x : Nibble) : Statement (.ldStore x) := by
  simp [Statement, opcodeMap, Instr.mnemonic, OpcodeRow.selects, encode, mask_x]; decide

theorem ldLoad (x : Nibble) : Statement (.ldLoad x) := by
  simp [Statement, opcodeMap, Instr.mnemonic, OpcodeRow.selects, encode, mask_x]; decide

theorem invalid (op : Word) : Statement (.invalid op) := by
  simp [Statement, opcodeMap, Instr.mnemonic]

end Sys2Proof.Laws.EncodeRow
end

