-- ==== Sys2Proof/Laws/Step.lean ====
section
/-! SUPPORT. The states Safety.lean names (`afterTaking`, `fetched`, `haltedWith`), field by field; and what one step is for
each operation of the host (00_scope.md R5) and each mode (40_cycle.md R61). -/

namespace Sys2Proof.Machine

namespace State

/-! ### `afterTaking` -/

@[simp] theorem afterTaking_V (s : State) : (s.afterTaking).V = s.V := rfl
@[simp] theorem afterTaking_I (s : State) : (s.afterTaking).I = s.I := rfl
@[simp] theorem afterTaking_pc (s : State) : (s.afterTaking).pc = s.pc := rfl
@[simp] theorem afterTaking_stack (s : State) : (s.afterTaking).stack = s.stack := rfl
@[simp] theorem afterTaking_sp (s : State) : (s.afterTaking).sp = s.sp := rfl
@[simp] theorem afterTaking_DT (s : State) : (s.afterTaking).DT = s.DT := rfl
@[simp] theorem afterTaking_ST (s : State) : (s.afterTaking).ST = s.ST := rfl
@[simp] theorem afterTaking_mode (s : State) : (s.afterTaking).mode = s.mode := rfl
@[simp] theorem afterTaking_M (s : State) : (s.afterTaking).M = s.M := rfl
@[simp] theorem afterTaking_FB (s : State) : (s.afterTaking).FB = s.FB := rfl
@[simp] theorem afterTaking_trace (s : State) : (s.afterTaking).trace = s.trace := rfl
@[simp] theorem afterTaking_session (s : State) : (s.afterTaking).session = s.session := rfl
@[simp] theorem afterTaking_hostOps (s : State) : (s.afterTaking).hostOps = s.hostOps.tail := rfl
@[simp] theorem afterTaking_randDraws (s : State) : (s.afterTaking).randDraws = s.randDraws := rfl
@[simp] theorem afterTaking_keyReads (s : State) : (s.afterTaking).keyReads = s.keyReads := rfl
@[simp] theorem afterTaking_readV (s : State) (r : Nibble) : (s.afterTaking).readV r = s.readV r := rfl

/-! ### `fetched` -/

@[simp] theorem fetched_V (s : State) : (s.fetched).V = s.V := rfl
@[simp] theorem fetched_I (s : State) : (s.fetched).I = s.I := rfl
@[simp] theorem fetched_pc (s : State) : (s.fetched).pc = s.pc + 2 := rfl
@[simp] theorem fetched_stack (s : State) : (s.fetched).stack = s.stack := rfl
@[simp] theorem fetched_sp (s : State) : (s.fetched).sp = s.sp := rfl
@[simp] theorem fetched_DT (s : State) : (s.fetched).DT = s.DT := rfl
@[simp] theorem fetched_ST (s : State) : (s.fetched).ST = s.ST := rfl
@[simp] theorem fetched_mode (s : State) : (s.fetched).mode = s.mode := rfl
@[simp] theorem fetched_M (s : State) : (s.fetched).M = s.M := rfl
@[simp] theorem fetched_FB (s : State) : (s.fetched).FB = s.FB := rfl
@[simp] theorem fetched_trace (s : State) : (s.fetched).trace = s.trace := rfl
@[simp] theorem fetched_session (s : State) : (s.fetched).session = .started := rfl
@[simp] theorem fetched_hostOps (s : State) : (s.fetched).hostOps = s.hostOps := rfl
@[simp] theorem fetched_randDraws (s : State) : (s.fetched).randDraws = s.randDraws := rfl
@[simp] theorem fetched_keyReads (s : State) : (s.fetched).keyReads = s.keyReads := rfl
@[simp] theorem fetched_readV (s : State) (r : Nibble) : (s.fetched).readV r = s.readV r := rfl

/-! ### `haltedWith` -/

@[simp] theorem haltedWith_V (s : State) (rec : HaltRecord) : (s.haltedWith rec).V = s.V := rfl
@[simp] theorem haltedWith_I (s : State) (rec : HaltRecord) : (s.haltedWith rec).I = s.I := rfl
@[simp] theorem haltedWith_pc (s : State) (rec : HaltRecord) : (s.haltedWith rec).pc = s.pc := rfl
@[simp] theorem haltedWith_stack (s : State) (rec : HaltRecord) : (s.haltedWith rec).stack = s.stack := rfl
@[simp] theorem haltedWith_sp (s : State) (rec : HaltRecord) : (s.haltedWith rec).sp = s.sp := rfl
@[simp] theorem haltedWith_DT (s : State) (rec : HaltRecord) : (s.haltedWith rec).DT = s.DT := rfl
@[simp] theorem haltedWith_ST (s : State) (rec : HaltRecord) : (s.haltedWith rec).ST = s.ST := rfl
@[simp] theorem haltedWith_mode (s : State) (rec : HaltRecord) : (s.haltedWith rec).mode = .halted rec := rfl
@[simp] theorem haltedWith_M (s : State) (rec : HaltRecord) : (s.haltedWith rec).M = s.M := rfl
@[simp] theorem haltedWith_FB (s : State) (rec : HaltRecord) : (s.haltedWith rec).FB = s.FB := rfl
@[simp] theorem haltedWith_trace (s : State) (rec : HaltRecord) : (s.haltedWith rec).trace = s.trace ++ [.halt rec] := rfl
@[simp] theorem haltedWith_session (s : State) (rec : HaltRecord) : (s.haltedWith rec).session = s.session := rfl
@[simp] theorem haltedWith_hostOps (s : State) (rec : HaltRecord) : (s.haltedWith rec).hostOps = s.hostOps := rfl
@[simp] theorem haltedWith_randDraws (s : State) (rec : HaltRecord) : (s.haltedWith rec).randDraws = s.randDraws := rfl
@[simp] theorem haltedWith_keyReads (s : State) (rec : HaltRecord) : (s.haltedWith rec).keyReads = s.keyReads := rfl
@[simp] theorem haltedWith_readV (s : State) (rec : HaltRecord) (r : Nibble) : (s.haltedWith rec).readV r = s.readV r := rfl

end State

/-- A step applies the next operation of the host to the state it was taken from. -/
theorem step_eq (s : State) : step s = applyOp (nextOp s) s.afterTaking := rfl

/-- A Reset step (R126). -/
theorem step_of_reset {s : State} (h : nextOp s = .reset) : step s = .next (resetSession s.afterTaking) := by
  rw [step_eq, h]; rfl

/-- A LoadProgram step (R43). -/
theorem step_of_loadProgram {s : State} {bytes : List Byte} (h : nextOp s = .loadProgram bytes) :
    step s = loadProgram bytes s.afterTaking := by
  rw [step_eq, h]; rfl

/-- A Cycle step (R61). -/
theorem step_of_cycle {s : State} (h : nextOp s = .cycle) : step s = cycle s.afterTaking := by
  rw [step_eq, h]; rfl

/-- A Tick step (R113). -/
theorem step_of_tick {s : State} (h : nextOp s = .tick) : step s = .next (tick s.afterTaking) := by
  rw [step_eq, h]; rfl

/-- A KeyRelease step (R116). -/
theorem step_of_keyRelease {s : State} {k : Nibble} (h : nextOp s = .keyRelease k) :
    step s = .next (keyRelease k s.afterTaking) := by
  rw [step_eq, h]; rfl

/-- A Cycle in mode Running with both bytes inside memory executes (R64, R65). -/
theorem cycle_running {s : State} (hm : s.mode = .running) {op : Word} (hf : s.fetchWord = some op) :
    cycle s = exec (decode op) s.fetched := by
  unfold cycle
  rw [hm, hf]
  rfl

/-- A Cycle in mode Running whose fetch fails halts (R64). -/
theorem cycle_fetchFails {s : State} (hm : s.mode = .running) (hf : s.fetchWord = none) :
    cycle s = .next (s.setSession .started).raiseFetch := by
  unfold cycle
  rw [hm, hf]

/-- A Cycle while a key is awaited does nothing (R62). -/
theorem cycle_awaitingKey {s : State} {x : Nibble} (hm : s.mode = .awaitingKey x) : cycle s = .next s := by
  unfold cycle
  rw [hm]

/-- A Cycle after a halt does nothing (R62, R106). -/
theorem cycle_halted {s : State} {r : HaltRecord} (hm : s.mode = .halted r) : cycle s = .next s := by
  unfold cycle
  rw [hm]

/-- A Cycle in mode KeyResolved writes the key (R63). -/
theorem cycle_keyResolved {s : State} {x k : Nibble} (hm : s.mode = .keyResolved x k) :
    cycle s = .next ((s.writeV x (k.setWidth 8)).setMode .running) := by
  unfold cycle
  rw [hm]

/-- Every instruction has a next state. -/
theorem exec_next (i : Instr) (s : State) : ∃ t, exec i s = .next t := by
  cases i <;> exact ⟨_, rfl⟩

/-- Every Cycle has a next state: it never waits (R61). -/
theorem cycle_next (s : State) : ∃ t, cycle s = .next t := by
  cases hm : s.mode with
  | awaitingKey x => exact ⟨_, cycle_awaitingKey hm⟩
  | halted r => exact ⟨_, cycle_halted hm⟩
  | keyResolved x k => exact ⟨_, cycle_keyResolved hm⟩
  | running =>
    cases hf : s.fetchWord with
    | none => exact ⟨_, cycle_fetchFails hm hf⟩
    | some op =>
      obtain ⟨t, ht⟩ := exec_next (decode op) s.fetched
      exact ⟨t, (cycle_running hm hf).trans ht⟩

/-- A run of no steps. -/
theorem core_run_zero (s : State) : Sys2Proof.core.run 0 s = .next s := rfl

/-- On any machine, a run goes on from the state its first step answers. -/
theorem run_of_step {C : Host.Core} {s t : C.State} (h : C.step s = .next t) (k : Nat) : C.run (k + 1) s = C.run k t := by
  simp only [Host.Core.run, h]

/-- A run goes on from the state its first step answers. -/
theorem core_run_next {s t : State} (h : step s = .next t) (k : Nat) :
    Sys2Proof.core.run (k + 1) s = Sys2Proof.core.run k t := run_of_step (C := Sys2Proof.core) h k

end Sys2Proof.Machine
end

