-- ==== Sys2Proof/Tests/Slice0.lean ====
section
/-! SUPPORT. Tests: the decoding of every constructor by a word written out from R54, the check of WellFormed, one or two
vectors of 95_test_vectors.md for each instruction and operation (their ids stand in the names' comments), and a witness for
the hypotheses of every statement. Every expected value is the spec's. -/

namespace Sys2Proof.Tests

open Sys2Proof.Machine

/-! ## Well-formedness: the one check refuses an opcode that belongs to a row -/

/-- `00E0` is CLS, so it is no invalid opcode (R57). -/
theorem test_invalid_00E0_is_ill_formed : (Instr.invalid 0x00E0).wellFormed = false := by decide

/-- `8127` is SUBN (R54). -/
theorem test_invalid_8127_is_ill_formed : (Instr.invalid 0x8127).wellFormed = false := by decide

/-- `5121` matches no row (R56). -/
theorem test_invalid_5121_is_well_formed : (Instr.invalid 0x5121).wellFormed = true := by decide

/-! ## Decoding: the bits of each row of R54, written out -/

theorem test_decode_control_flow :
    decode 0b0000000011101110 = .ret ∧ decode 0b0001101010111100 = .jp 0xABC ∧ decode 0b0010101010111100 = .call 0xABC ∧
    decode 0b1011000000010000 = .jpV0 0x010 ∧ decode 0b0011000011101111 = .seImm 0x0 0xEF ∧
    decode 0b0100001100000001 = .sneImm 0x3 0x01 ∧ decode 0b0101000100100000 = .seReg 0x1 0x2 ∧
    decode 0b1001000100100000 = .sneReg 0x1 0x2 := by decide

theorem test_decode_alu :
    decode 0b0110101010011100 = .ldImm 0xA 0x9C ∧ decode 0b0111000000000001 = .addImm 0x0 0x01 ∧
    decode 0b1000000100110000 = .ldReg 0x1 0x3 ∧ decode 0b1000000100100001 = .orReg 0x1 0x2 ∧
    decode 0b1000000100100010 = .andReg 0x1 0x2 ∧ decode 0b1000000100100011 = .xorReg 0x1 0x2 ∧
    decode 0b1000000000010100 = .addReg 0x0 0x1 ∧ decode 0b1000000000010101 = .sub 0x0 0x1 ∧
    decode 0b1000001100010110 = .shr 0x3 0x1 ∧ decode 0b1000000000010111 = .subn 0x0 0x1 ∧
    decode 0b1000001000001110 = .shl 0x2 0x0 ∧ decode 0b1100001100001111 = .rnd 0x3 0x0F := by decide

theorem test_decode_index_memory :
    decode 0b1010001100000000 = .ldI 0x300 ∧ decode 0b1111000000011110 = .addI 0x0 ∧ decode 0b1111001000101001 = .ldF 0x2 ∧
    decode 0b1111101000110011 = .ldB 0xA ∧ decode 0b1111001001010101 = .ldStore 0x2 ∧
    decode 0b1111001001100101 = .ldLoad 0x2 := by decide

theorem test_decode_display_key_timer :
    decode 0b0000000011100000 = .cls ∧ decode 0b1101000100100101 = .drw 0x1 0x2 0x5 ∧ decode 0b1110010110011110 = .skp 0x5 ∧
    decode 0b1110010110100001 = .sknp 0x5 ∧ decode 0b1111001100000111 = .ldVxDt 0x3 ∧ decode 0b1111000000001010 = .ldVxK 0x0 ∧
    decode 0b1111000000010101 = .ldDtVx 0x0 ∧ decode 0b1111000100011000 = .ldStVx 0x1 := by decide

/-- Vector CY6: words of the invalid space. -/
theorem test_decode_invalid :
    [0x0123, 0x00E1, 0x00FF, 0x5121, 0x8008, 0x800F, 0x9121, 0xE000, 0xE19F, 0xF000, 0xF0FF, 0xFFFF].all
      (fun op : Word => decode op == .invalid op) = true := by decide

/-- Vector S1: the fields of `D123`. -/
theorem test_fields_D123 : fields 0xD123 = { d1 := 0xD, x := 1, y := 2, n := 3, nn := 0x23, nnn := 0x123 } := by decide

/-- One byte holds no instruction (R51). -/
theorem test_decode_truncated : decodeBytes [0x60] = .error .truncated := by rfl

/-! ## Instructions -/

/-- The state an instruction leaves; the state before it if there were no next state. -/
def ran (i : Instr) (s : State) : State :=
  match exec i s with
  | .next t => t
  | .fault _ => s
  | .refused _ => s

/-- The state a step leaves; the state before it if there were no next state. -/
def stepped (s : State) : State :=
  match step s with
  | .next t => t
  | .fault _ => s
  | .refused _ => s

/-- The reset state with two registers set. -/
def with2 (x y : Nibble) (a b : Byte) : State := (State.reset.writeV x a).writeV y b

/-- CF9: RET from sp = 2. -/
theorem test_ret :
    let s := { State.reset with stack := (State.reset.stack.set 0 0x206).set 1 0x312, sp := 2 }
    (ran .ret s).pc = 0x312 ∧ (ran .ret s).sp = 1 ∧ (ran .ret s).stack[1] = 0x312 := by decide

/-- CF8: RET from an empty stack halts. -/
theorem test_ret_underflow : (ran .ret (State.reset.setPc 0x402)).mode =
    .halted { cause := .stackUnderflow, instrAt := 0x400, opcode := some 0x00EE, addr := none } := by decide

/-- S2. -/
theorem test_jp : (ran (.jp 0xABC) (State.reset.setPc 0x7F2)).pc = 0xABC := by decide

/-- CF4: the 16th nested call. -/
theorem test_call :
    let s := ran (.call 0x400) { State.reset with pc := 0x202, sp := 15 }
    s.stack[15] = 0x202 ∧ s.sp = 16 ∧ s.pc = 0x400 := by decide

/-- CF5: the 17th halts. -/
theorem test_call_overflow :
    let s := ran (.call 0x400) { State.reset with pc := 0x202, sp := 16 }
    s.mode = .halted { cause := .stackOverflow, instrAt := 0x200, opcode := some 0x2400, addr := none } ∧
      s.sp = 16 ∧ s.pc = 0x202 := by decide

/-- CF11: the sum is not masked. -/
theorem test_jpV0 : (ran (.jpV0 0xFFF) (State.reset.writeV 0 0xFF)).pc = 0x10FE := by decide

/-- S4, S4b. -/
theorem test_seImm :
    (ran (.seImm 0 0xEF) ((State.reset.writeV 0 0xEF).setPc 0x202)).pc = 0x204 ∧
    (ran (.seImm 0 0xEE) ((State.reset.writeV 0 0xEF).setPc 0x202)).pc = 0x202 := by decide

/-- CF14, CF15. -/
theorem test_sneImm :
    (ran (.sneImm 3 0x01) (State.reset.setPc 0x202)).pc = 0x204 ∧
    (ran (.sneImm 3 0x00) (State.reset.setPc 0x202)).pc = 0x202 := by decide

/-- CF17, CF18. -/
theorem test_seReg :
    (ran (.seReg 1 2) ((with2 1 2 0x7F 0x7F).setPc 0x202)).pc = 0x204 ∧
    (ran (.seReg 1 2) ((with2 1 2 0x7F 0x7E).setPc 0x202)).pc = 0x202 := by decide

/-- CF20, CF21. -/
theorem test_sneReg :
    (ran (.sneReg 1 2) ((with2 1 2 1 2).setPc 0x202)).pc = 0x204 ∧
    (ran (.sneReg 4 4) ((with2 1 2 1 2).setPc 0x202)).pc = 0x202 := by decide

/-- AL2. -/
theorem test_ldImm : (ran (.ldImm 0xF 0xAB) (State.reset.writeV 0xF 0x12)).readV 0xF = 0xAB := by decide

/-- S11: wrapping, VF unchanged. -/
theorem test_addImm :
    (ran (.addImm 0 0x01) (with2 0 0xF 0xFF 0x77)).readV 0 = 0x00 ∧
    (ran (.addImm 0 0x01) (with2 0 0xF 0xFF 0x77)).readV 0xF = 0x77 := by decide

/-- AL6. -/
theorem test_ldReg : (ran (.ldReg 1 3) (State.reset.writeV 3 0x42)).readV 1 = 0x42 := by decide

/-- AL7, AL8, AL9. -/
theorem test_bitwise :
    (ran (.orReg 1 2) (with2 1 2 0xF0 0x0F)).readV 1 = 0xFF ∧
    (ran (.andReg 1 2) (with2 1 2 0xF0 0x3C)).readV 1 = 0x30 ∧
    (ran (.xorReg 1 2) (with2 1 2 0xF0 0x3C)).readV 1 = 0xCC := by decide

/-- S5 and AL15: with x = 0xF the carry is what VF holds. -/
theorem test_addReg :
    (ran (.addReg 0 1) (with2 0 1 0xFF 0x01)).readV 0 = 0x00 ∧ (ran (.addReg 0 1) (with2 0 1 0xFF 0x01)).readV 0xF = 1 ∧
    (ran (.addReg 0xF 1) (with2 0xF 1 0x10 0xF5)).readV 0xF = 1 := by decide

/-- S6 and AL22. -/
theorem test_sub :
    (ran (.sub 0 1) (with2 0 1 0x01 0x02)).readV 0 = 0xFF ∧ (ran (.sub 0 1) (with2 0 1 0x01 0x02)).readV 0xF = 0 ∧
    (ran (.sub 0xF 1) (with2 0xF 1 0x03 0x05)).readV 0xF = 0 := by decide

/-- AL24 and AL26. -/
theorem test_subn :
    (ran (.subn 0 1) (with2 0 1 0x02 0x01)).readV 0 = 0xFF ∧ (ran (.subn 0 1) (with2 0 1 0x02 0x01)).readV 0xF = 0 ∧
    (ran (.subn 0xF 1) (with2 0xF 1 0x02 0x05)).readV 0xF = 1 := by decide

/-- AL27 and AL30: the source is Vy. -/
theorem test_shr :
    (ran (.shr 3 1) (with2 3 1 0 0x11)).readV 3 = 0x08 ∧ (ran (.shr 3 1) (with2 3 1 0 0x11)).readV 0xF = 1 ∧
    (ran (.shr 0 1) (with2 0 1 0xFF 0x02)).readV 0 = 0x01 ∧ (ran (.shr 0 1) (with2 0 1 0xFF 0x02)).readV 0xF = 0 := by decide

/-- AL34 and AL36. -/
theorem test_shl :
    (ran (.shl 2 0) (with2 2 0 0 0x81)).readV 2 = 0x02 ∧ (ran (.shl 2 0) (with2 2 0 0 0x81)).readV 0xF = 1 ∧
    (ran (.shl 2 0) (with2 2 0 0 0x7F)).readV 2 = 0xFE ∧ (ran (.shl 2 0) (with2 2 0 0 0x7F)).readV 0xF = 0 := by decide

/-- AL38, for the byte the vector draws. -/
theorem test_rnd : (randomMasked 0xA7 3 0x0F State.reset).readV 3 = 0x07 := by decide

/-- AL39: with nn = 0 every byte gives 0. -/
theorem test_rnd_mask_zero : ran (.rnd 3 0x00) State.reset = State.reset.countDraw.writeV 3 0 := by
  simp [ran, exec, execRnd, randomMasked]

/-- IM1. -/
theorem test_ldI : (ran (.ldI 0x123) State.reset).I = 0x0123 := by decide

/-- IM3 and IM5. -/
theorem test_addI :
    (ran (.addI 0) ((State.reset.writeV 0 0x01).setI 0x0FFF)).I = 0x1000 ∧
    (ran (.addI 0) ((State.reset.writeV 0 0x01).setI 0x0FFF)).readV 0xF = 1 ∧
    (ran (.addI 0) ((State.reset.writeV 0 0x01).setI 0xFFFF)).I = 0x0000 ∧
    (ran (.addI 0) ((State.reset.writeV 0 0x01).setI 0xFFFF)).readV 0xF = 1 := by decide

/-- IM8: the whole byte is used. -/
theorem test_ldF : (ran (.ldF 2) (State.reset.writeV 2 0xFF)).I = 0x04FB := by decide

/-- IM10. -/
theorem test_ldB :
    (ran (.ldB 0xA) ((State.reset.writeV 0xA 0x9C).setI 0x300)).M.readList 0x300 3 = [0x01, 0x05, 0x06] := by decide

/-- IM14. -/
theorem test_ldB_outside :
    let s := ran (.ldB 0) (((State.reset.writeV 0 0x07).setI 0xFFE).setPc 0x202)
    s.mode = .halted { cause := .outOfBoundsMemoryAccess, instrAt := 0x200, opcode := some 0xF033, addr := some 0x1000 } ∧
      s.M = [] ∧ s.pc = 0x202 := by decide

/-- IM15. -/
theorem test_ldStore :
    let s := ran (.ldStore 2) ((((State.reset.writeV 0 1).writeV 1 2).writeV 2 3).setI 0x400)
    s.M = [(0x400, 1), (0x401, 2), (0x402, 3)] ∧ s.I = 0x400 := by decide

/-- IM24: a write into the font succeeds. -/
theorem test_ldStore_font : (ran (.ldStore 0) (State.reset.setI 0x010)).M.read 0x010 = 0x00 := by decide

/-- IM20. -/
theorem test_ldLoad :
    let s := ran (.ldLoad 2) (((State.reset.writeV 3 0x99).setI 0x300).setM [(0x300, 1), (0x301, 5), (0x302, 6)])
    s.readV 0 = 1 ∧ s.readV 1 = 5 ∧ s.readV 2 = 6 ∧ s.readV 3 = 0x99 := by decide

/-- IM22. -/
theorem test_ldLoad_outside : (ran (.ldLoad 1) ((State.reset.setI 0xFFF).setPc 0x202)).mode =
    .halted { cause := .outOfBoundsMemoryAccess, instrAt := 0x200, opcode := some 0xF165, addr := some 0x1000 } := by decide

/-- TK1, for one pixel that was on. -/
theorem test_cls :
    let s := State.reset.setFB (FrameBuffer.allOff.setPixel 3 4 true)
    s.FB.pixel 3 4 = true ∧ (ran .cls s).FB.pixel 3 4 = false ∧ (ran .cls s).trace = [.clear] := by decide

/-- The state of TK2: V0 = 0x3E, V1 = 0x1F, I = 0x300, M[0x300] = 0xFF. -/
def tk2 : State := ((with2 0 1 0x3E 0x1F).setI 0x300).setM [(0x300, 0xFF)]

/-- TK2: the sprite wraps at the right edge. -/
theorem test_drw :
    let s := ran (.drw 0 1 1) tk2
    [62, 63, 0, 1, 2, 3, 4, 5].all (fun c => s.FB.pixel 31 c) = true ∧ s.FB.pixel 31 6 = false ∧ s.FB.pixel 31 61 = false ∧
      s.readV 0xF = 0 ∧ s.trace = [.draw 62 31 [0xFF] false] := by decide

/-- TK3: drawn again, it collides and is gone. -/
theorem test_drw_again :
    let s := ran (.drw 0 1 1) (ran (.drw 0 1 1) tk2)
    s.FB.pixel 31 62 = false ∧ s.readV 0xF = 1 := by decide

/-- TK9 and TK10: SKP's skip, for both answers of the key asked about (TK13: the low nibble). -/
theorem test_skp :
    keyNumber 0x1C = 0xC ∧
    (((State.reset.setPc 0x202).recordKeyQuery 0xC true).skipIf true).pc = 0x204 ∧
    (((State.reset.setPc 0x202).recordKeyQuery 0xC false).skipIf false).pc = 0x202 := by decide

/-- TK9 and TK10 for the instruction: it skips exactly when the answer is yes. -/
theorem test_skp_follows_answer (h : Config.keyPressed 0 0x0 = true) : (ran (.skp 5) State.reset).pc = 0x202 := by
  have hk : keyNumber (State.reset.readV 5) = 0x0 := by decide
  have hr : State.reset.keyReads = 0 := rfl
  simp only [ran, exec, execSkp, hk, hr, h]
  decide

/-- TK12 for the instruction: it does not skip when the answer is yes. -/
theorem test_sknp_follows_answer (h : Config.keyPressed 0 0x0 = true) : (ran (.sknp 5) State.reset).pc = 0x200 := by
  have hk : keyNumber (State.reset.readV 5) = 0x0 := by decide
  have hr : State.reset.keyReads = 0 := rfl
  simp only [ran, exec, execSknp, hk, hr, h]
  decide

/-- TK14. -/
theorem test_ldVxDt : (ran (.ldVxDt 3) (State.reset.setDT 0x3C)).readV 3 = 0x3C := by decide

/-- TK15. -/
theorem test_ldDtVx : (ran (.ldDtVx 0) (State.reset.writeV 0 5)).DT = 5 := by decide

/-- TK16, TK17. -/
theorem test_ldStVx_start :
    (ran (.ldStVx 1) (State.reset.writeV 1 2)).trace = [.soundStart] ∧
    (ran (.ldStVx 1) ((State.reset.writeV 1 3).setST 2)).trace = [] := by decide

/-- TK18, TK19. -/
theorem test_ldStVx_stop :
    (ran (.ldStVx 1) (State.reset.setST 2)).trace = [.soundStop] ∧ (ran (.ldStVx 1) (State.reset.setST 2)).ST = 0 ∧
    (ran (.ldStVx 1) State.reset).trace = [] := by decide

/-- TK25. -/
theorem test_ldVxK :
    (ran (.ldVxK 5) (State.reset.setPc 0x202)).mode = .awaitingKey 5 ∧
    (ran (.ldVxK 5) (State.reset.setPc 0x202)).readV 5 = 0 := by decide

/-- S12. -/
theorem test_invalid : ran (.invalid 0x0000) State.reset = State.reset := by rfl

/-! ## Operations -/

/-- CY5: an odd `pc` fetches like any other. -/
theorem test_step_odd_pc :
    let s := stepped ({ State.reset with pc := 0x201, M := [(0x201, 0x6A), (0x202, 0x05)] })
    s.readV 0xA = 0x05 ∧ s.pc = 0x203 := by decide

/-- CY3. -/
theorem test_step_fetch_outside :
    let s := stepped (State.reset.setPc 0xFFF)
    s.mode = .halted { cause := .outOfBoundsMemoryAccess, instrAt := 0xFFF, opcode := none, addr := some 0x1000 } ∧
      s.pc = 0xFFF := by decide

/-- CY9: the resolving Cycle. -/
theorem test_step_key_resolved :
    let s := stepped { State.reset with mode := .keyResolved 0xF 0x9, V := State.reset.V.set 15 1, pc := 0x240 }
    s.readV 0xF = 0x09 ∧ s.mode = .running ∧ s.pc = 0x240 := by decide

/-- TK20, TK21: the first with no event, the second with the stop. -/
theorem test_tick :
    (tick ((State.reset.setDT 5).setST 3)).DT = 4 ∧ (tick ((State.reset.setDT 5).setST 3)).ST = 2 ∧
    (tick ((State.reset.setDT 5).setST 3)).trace = [] ∧
    (tick ((State.reset.setDT 1).setST 1)).trace = [.soundStop] := by decide

/-- TK27: the first release wins. -/
theorem test_keyRelease :
    (keyRelease 9 (keyRelease 3 (State.reset.setMode (.awaitingKey 5)))).mode = .keyResolved 5 3 := by decide

/-- S10: the font is in place before any load. -/
theorem test_reset_font :
    State.reset.M.readList 0x000 5 = [0xF0, 0x90, 0x90, 0x90, 0xF0] ∧
    State.reset.M.readList 0x04B 5 = [0xF0, 0x80, 0xF0, 0x80, 0x80] ∧ State.reset.M.read 0x050 = 0 := by decide

/-- R43: a program's bytes at 0x200 and up. -/
theorem test_loadProgram :
    (stepped { State.reset with hostOps := [.loadProgram [0x22, 0x00]] }).M = [(0x200, 0x22)] := by decide

/-- R43: a second load is refused. -/
theorem test_loadProgram_twice :
    loadProgram [0x22] (stepped { State.reset with hostOps := [.loadProgram [0x22, 0x00]] }) = .refused .loadNotAdmitted := by
  rfl

/-- A placed table word is what the next step runs (`6A9C`, AL1). -/
theorem test_withFetchWord : (stepped (State.reset.withFetchWord 16 0x6A9C)).readV 0xA = 0x9C := by decide

/-- R44's table word order: the opcode's first byte is the high one. -/
theorem test_decodeTableWord : decodeTableWord 16 0x1ABC = some (.jp 0xABC) := by decide

/-! ## Witnesses: states and operands that meet the hypotheses of each statement, clause by clause -/

theorem witness_DecodeOfEncode : (Instr.invalid 0x8008).wellFormed = true := by decide

theorem witness_StepRunsTheDecodedInstruction :
    let s := State.reset.setPc 0xFFE
    nextOp s = .cycle ∧ s.mode = .running ∧ s.pc.toNat + 1 < 4096 := by decide

theorem witness_PlacedWordRunsNext : State.reset.M.wf := by decide

theorem witness_FetchOutsideMemoryHalts :
    let s := State.reset.setPc 0xFFF
    nextOp s = .cycle ∧ s.mode = .running ∧ 4096 ≤ s.pc.toNat + 1 := by decide

theorem witness_CycleOutsideRunning :
    nextOp (State.reset.setMode (.awaitingKey 0xF)) = .cycle ∧
    nextOp (State.reset.setMode (.halted ⟨.stackOverflow, 0x200, some 0x2200, none⟩)) = .cycle ∧
    nextOp (State.reset.setMode (.keyResolved 0xF 0xF)) = .cycle := by decide

theorem witness_TickCountsTimersDown : nextOp (State.reset.setHostOps [.tick]) = .tick := by decide

theorem witness_KeyReleaseIsRecordedOnce :
    nextOp ((State.reset.setMode (.awaitingKey 0xF)).setHostOps [.keyRelease 0xF]) = .keyRelease 0xF ∧
    nextOp (State.reset.setHostOps [.keyRelease 0]) = .keyRelease 0 ∧ ∀ x, State.reset.mode ≠ .awaitingKey x := by
  refine ⟨by decide, by decide, fun x => ?_⟩
  simp [State.reset]

/-- The longest program admitted. -/
theorem witness_LoadProgramCopiesItsBytes :
    let s := State.reset.setHostOps [.loadProgram (List.replicate 3584 0xFF)]
    nextOp s = .loadProgram (List.replicate 3584 0xFF) ∧ s.session = .built ∧
      (List.replicate 3584 (0xFF : Byte)).length ≤ 3584 ∧ s.M.wf :=
  ⟨rfl, rfl, List.length_replicate.le, Memory.nil_wf⟩

/-- A second load, a load after a Cycle, the shortest program that is too long, and two steps that are not refused: the
longest program admitted and a Cycle. -/
theorem witness_OnlyUnadmittedLoadIsRefused :
    (let s : State := { State.reset with session := .loaded, hostOps := [.loadProgram []] };
      nextOp s = .loadProgram [] ∧ s.session ≠ .built) ∧
    (let s : State := { State.reset with session := .started, hostOps := [.loadProgram []] };
      nextOp s = .loadProgram [] ∧ s.session ≠ .built) ∧
    (let s := State.reset.setHostOps [.loadProgram (List.replicate 3585 0)];
      nextOp s = .loadProgram (List.replicate 3585 0) ∧ s.session = .built ∧ 3584 < (List.replicate 3585 (0 : Byte)).length) ∧
    (let s := State.reset.setHostOps [.loadProgram (List.replicate 3584 0)];
      ∀ bytes, nextOp s = .loadProgram bytes → s.session = .built ∧ bytes.length ≤ 3584) ∧
    (∀ bytes, nextOp State.reset = .loadProgram bytes → State.reset.session = .built ∧ bytes.length ≤ 3584) := by
  refine ⟨⟨rfl, by decide⟩, ⟨rfl, by decide⟩, ⟨rfl, rfl, ?_⟩, fun bytes h => ?_, fun bytes h => ?_⟩
  · rw [List.length_replicate]; decide
  · cases h
    exact ⟨rfl, List.length_replicate.le⟩
  · cases h

theorem witness_ResetDiscardsTheSession : nextOp (State.reset.setHostOps [.reset]) = .reset := by decide

/-- An error of each cause, and no error just inside each bound. -/
theorem witness_ErrorsAreExactAndPrecise :
    errorOf State.reset .ret = some (.stackUnderflow, none) ∧
    errorOf { State.reset with sp := 16 } (.call 0x400) = some (.stackOverflow, none) ∧
    errorOf { State.reset with sp := 15 } (.call 0x400) = none ∧
    errorOf (State.reset.setI 0xFF2) (.drw 0 0 0xF) = some (.outOfBoundsMemoryAccess, some 4096) ∧
    errorOf (State.reset.setI 0xFF1) (.drw 0 0 0xF) = none ∧
    errorOf (State.reset.setI 0xFFFF) (.drw 0 0 0x0) = none ∧
    errorOf (State.reset.setI 0xFFE) (.ldB 0) = some (.outOfBoundsMemoryAccess, some 4096) ∧
    errorOf (State.reset.setI 0xFFD) (.ldB 0) = none ∧
    errorOf (State.reset.setI 0x2000) (.ldStore 0) = some (.outOfBoundsMemoryAccess, some 0x2000) ∧
    errorOf (State.reset.setI 0xFFF) (.ldLoad 0) = none := by decide

/-- A halted state that keeps the session invariant, with a Cycle to come, and with a Tick that stops the sound. -/
theorem witness_HaltedIsTerminal :
    let r : HaltRecord := ⟨.stackUnderflow, 0x200, some 0x00EE, none⟩
    let s : State := { State.reset with mode := .halted r, session := .started, ST := 1 }
    let s' : State := { s with hostOps := [.tick] }
    (s.sessionAgrees ∧ s.mode = .halted r ∧ nextOp s ≠ .reset ∧ nextOp s ≠ .tick ∧ ∃ t, step s = .next t) ∧
    (s'.sessionAgrees ∧ s'.mode = .halted r ∧ nextOp s' = .tick ∧ s'.ST = 1 ∧ ∃ t, step s' = .next t) := by
  refine ⟨⟨⟨fun _ => rfl, fun h => ?_, fun h => ?_⟩, rfl, by decide, by decide, ⟨_, rfl⟩⟩,
    ⟨⟨fun _ => rfl, fun h => ?_, fun h => ?_⟩, rfl, by decide, by decide, ⟨_, rfl⟩⟩⟩ <;> simp at h

/-- A state in each mode, with the operation its clause is about. -/
theorem witness_InputWaitTransitions :
    (∃ t, step (State.reset.setPc 0xFFF) = .next t ∧ t.isHalted = true) ∧
    (∃ t, step (State.reset.withFetchWord 16 0xF50A) = .next t ∧ t.mode = .awaitingKey 5) ∧
    (∃ t, step ((State.reset.setMode (.awaitingKey 5)).setHostOps [.keyRelease 3]) = .next t ∧ t.mode = .keyResolved 5 3) ∧
    (∃ t, step (State.reset.setMode (.awaitingKey 5)) = .next t ∧ t.isAwaitingKey = true) ∧
    (∃ t, step (State.reset.setMode (.keyResolved 5 3)) = .next t ∧ t.readV 5 = 3) ∧
    (∃ t, step ((State.reset.setMode (.keyResolved 5 3)).setHostOps [.keyRelease 9]) = .next t ∧ t.mode = .keyResolved 5 3) ∧
    (∃ t, step ((State.reset.setMode (.keyResolved 5 3)).setHostOps [.tick]) = .next t ∧ t.mode = .keyResolved 5 3) ∧
    (∃ t, step (((State.reset.setMode (.halted ⟨.stackOverflow, 0x200, some 0x2200, none⟩)).setST 1).setHostOps [.tick]) =
      .next t ∧ t.ST = 0) :=
  ⟨⟨_, rfl, rfl⟩, ⟨_, rfl, rfl⟩, ⟨_, rfl, rfl⟩, ⟨_, rfl, rfl⟩, ⟨_, rfl, rfl⟩, ⟨_, rfl, rfl⟩, ⟨_, rfl, rfl⟩, ⟨_, rfl, rfl⟩⟩

/-- A flag writer and a destination write that change VF. -/
theorem witness_FlagRegisterWriters :
    (∃ t, exec (.addReg 0 1) (with2 0 1 0xFF 1) = .next t ∧ t.readV 0xF ≠ (with2 0 1 0xFF 1).readV 0xF) ∧
    (∃ t, exec (.ldImm 0xF 1) State.reset = .next t ∧ t.readV 0xF ≠ State.reset.readV 0xF) :=
  ⟨⟨_, rfl, by decide⟩, ⟨_, rfl, by decide⟩⟩

/-- A change of each component. -/
theorem witness_StateComponentWriters :
    (∃ t, exec (.ldI 1) State.reset = .next t ∧ t.I ≠ State.reset.I) ∧
    (∃ t, exec (.call 0x400) State.reset = .next t ∧ t.sp ≠ State.reset.sp ∧ t.stack ≠ State.reset.stack ∧ t.pc ≠ State.reset.pc) ∧
    (∃ t, exec (.ldDtVx 0) (State.reset.writeV 0 5) = .next t ∧ t.DT ≠ State.reset.DT) ∧
    (∃ t, exec (.ldStVx 0) (State.reset.writeV 0 5) = .next t ∧ t.ST ≠ State.reset.ST ∧ t.trace ≠ State.reset.trace) ∧
    (∃ t, exec (.ldB 0) (State.reset.setI 0x300 |>.writeV 0 9) = .next t ∧ t.M.read 0x302 ≠ State.reset.M.read 0x302) ∧
    (∃ t, exec (.ldVxK 0) State.reset = .next t ∧ t.mode ≠ State.reset.mode) :=
  ⟨⟨_, rfl, by decide⟩, ⟨_, rfl, by decide, by decide, by decide⟩, ⟨_, rfl, by decide⟩, ⟨_, rfl, by decide, by decide⟩,
    ⟨_, rfl, by decide⟩, ⟨_, rfl, by decide⟩⟩

/-- A framebuffer an instruction changes (StateComponentWriters). -/
theorem witness_StateComponentWriters_FB :
    ∃ t, exec (.drw 0 0 1) State.reset = .next t ∧ t.FB.pixel 0 0 ≠ State.reset.FB.pixel 0 0 := ⟨_, rfl, by decide⟩

/-- The reset state meets the premise of every invariant, and steps. -/
theorem witness_invariants :
    State.reset.M.wf ∧ State.reset.withinBounds ∧ State.reset.audioAgrees ∧ State.reset.haltAgrees ∧
    State.reset.sessionAgrees ∧ ∃ t, step State.reset = .next t := by
  refine ⟨Memory.nil_wf, ⟨by decide, fun e he => ?_⟩, by rfl, by rfl, ⟨fun h => absurd rfl h, fun _ => rfl, fun h => ?_⟩, ⟨_, rfl⟩⟩
  · have : e = 0 := by simpa [State.reset] using he
    simp [this]
  · simp [State.reset] at h

theorem witness_EqualReadsMeanEqualMemory :
    Memory.wf [(0x200, 0x22)] ∧ ∀ a, a < 4096 → Memory.read [(0x200, 0x22)] a = Memory.read [(0x200, 0x22)] a :=
  ⟨by decide, fun _ _ => rfl⟩

/-- The last two bytes of memory. -/
theorem witness_StoredBytesAreFetched :
    let s := (State.reset.setI 0xFFE).setPc 0xFFE
    s.M.wf ∧ s.I.toNat + (1 : Nibble).toNat < 4096 ∧ 0 < (1 : Nibble).toNat ∧ s.pc.toNat = s.I.toNat + 0 := by
  refine ⟨Memory.nil_wf, by decide, by decide, by decide⟩

/-- Two different states that differ in a stale entry only. -/
theorem witness_StaleStackEntriesAreUnobservable :
    let s : State := { State.reset with sp := 3 }
    let s' : State := { s with stack := s.stack.set 3 0x300 }
    SameButStaleStack s s' ∧ s ≠ s' ∧ ∃ t, step s = .next t := by
  refine ⟨⟨rfl, fun j h hj => ?_⟩, fun e => ?_, ⟨_, rfl⟩⟩
  · have : (3 : Nat) ≠ j := fun e => by subst e; simp at hj
    simp [this]
  · exact absurd (congrArg (fun s : State => s.stack[3]) e) (by decide)

theorem witness_FreeInputReaders :
    Instr.mnemonic (.ldImm 0 1) ∉ ["RND", "SKP", "SKNP"] ∧ ∃ t, exec (.ldImm 0 1) State.reset = .next t :=
  ⟨by decide, ⟨_, rfl⟩⟩

/-- The longest sprite, and an empty one. -/
theorem witness_SpriteDrawnTwiceIsErased :
    (List.replicate 15 (0xFF : Byte)).length ≤ 15 ∧ ([] : List Byte).length ≤ 15 := by decide

/-- Waits whose one Tick stops the sound, and no waits at all. -/
theorem witness_KeyWaitEndsWithTheRelease :
    let s : State :=
      { State.reset with mode := .awaitingKey 0, ST := 1, hostOps := [.cycle, .tick] ++ .keyRelease 3 :: .cycle :: [.tick] }
    let s' : State := { s with hostOps := [] ++ .keyRelease 3 :: .cycle :: [] }
    (s.mode = .awaitingKey 0 ∧ (∀ op ∈ [HostOp.cycle, .tick], op = .cycle ∨ op = .tick) ∧
      s.hostOps = [.cycle, .tick] ++ .keyRelease 3 :: .cycle :: [.tick] ∧
      0 < s.ST.toNat ∧ s.ST.toNat ≤ [HostOp.cycle, .tick].count .tick) ∧
    (s'.mode = .awaitingKey 0 ∧ s'.hostOps = [] ++ .keyRelease 3 :: .cycle :: []) :=
  ⟨⟨rfl, by decide, rfl, by decide, by decide⟩, rfl, rfl⟩

theorem witness_TicksRunTheTimersDown :
    (State.reset.setHostOps [.tick, .tick, .cycle]).hostOps = List.replicate 2 .tick ++ [.cycle] := by decide

theorem witness_ReturnPopsTheStack :
    0 < ({ State.reset with sp := 16 } : State).sp.val ∧ 0 < ({ State.reset with sp := 1 } : State).sp.val ∧
    State.reset.sp.val = 0 := by decide

theorem witness_CallPushesTheReturnAddress :
    ({ State.reset with sp := 15 } : State).sp.val < 16 ∧ ({ State.reset with sp := 16 } : State).sp.val = 16 := by decide

theorem witness_InvalidOpcodeIsANoOp :
    nextOp State.reset = .cycle ∧ State.reset.mode = .running ∧ State.reset.pc.toNat + 1 < 4096 ∧
    inInvalidSpace (State.reset.M.read State.reset.pc.toNat ++ State.reset.M.read (State.reset.pc.toNat + 1)) = true := by
  decide

/-- The last address Fx33 may store at, and the first it may not. -/
theorem witness_DecimalDigitsAreStored :
    (State.reset.setI 0xFFD).M.wf ∧ (State.reset.setI 0xFFD).I.toNat + 2 < 4096 ∧
    4096 ≤ (State.reset.setI 0xFFE).I.toNat + 2 := ⟨Memory.nil_wf, by decide, by decide⟩

theorem witness_RegistersAreStored :
    (State.reset.setI 0xFF0).M.wf ∧ (State.reset.setI 0xFF0).I.toNat + (0xF : Nibble).toNat < 4096 ∧
    4096 ≤ (State.reset.setI 0xFF1).I.toNat + (0xF : Nibble).toNat := ⟨Memory.nil_wf, by decide, by decide⟩

theorem witness_RegistersAreLoaded :
    (State.reset.setI 0xFF0).I.toNat + (0xF : Nibble).toNat < 4096 ∧
    4096 ≤ (State.reset.setI 0xFFF).I.toNat + (0x1 : Nibble).toNat := by decide

/-- The last address of a sprite, the first outside, and no sprite at all, wherever I points. -/
theorem witness_DrawXorsTheSprite :
    (State.reset.setI 0xFF1).I.toNat + (0xF : Nibble).toNat ≤ 4096 ∧
    4096 < (State.reset.setI 0xFF2).I.toNat + (0xF : Nibble).toNat ∧ (0xF : Nibble) ≠ 0 ∧
    ((0x0 : Nibble) = 0 ∧ 4096 < (State.reset.setI 0x2000).I.toNat + (0x0 : Nibble).toNat) := by decide

/-- TK5: with no rows nothing is read or drawn, no error is raised, and VF is 0. -/
theorem test_drw_no_rows :
    let s := ran (.drw 0 1 0) ((State.reset.writeV 0xF 0x07).setI 0x2000)
    s.mode = .running ∧ s.readV 0xF = 0 ∧ s.trace = [.draw 0 0 [] false] := by decide

theorem witness_KeySkipsFollowTheAnswer :
    (0xC : Nibble).toNat = ((State.reset.writeV 5 0x1C).readV 5).toNat % 16 := by decide

end Sys2Proof.Tests
end

section
/-! PROOFS. The fields of an opcode as numbers (30_encoding.md R52): one lemma per field of `fields`, the two fields that are
used at 16 bits as masks of the opcode, and the obligation about them. -/

namespace Sys2Proof

section
variable (op : Word)

/-- R52: d1 is the top nibble, so its quotient needs no remainder: an opcode is below 65536. -/
@[simp] theorem fields_d1_toNat : (fields op).d1.toNat = op.toNat / 4096 := by
  have h : op.toNat / 4096 < 16 := by omega
  simp [fields, Nat.shiftRight_eq_div_pow, Nat.mod_eq_of_lt h]

@[simp] theorem fields_x_toNat : (fields op).x.toNat = op.toNat / 256 % 16 := by
  simp [fields, Nat.shiftRight_eq_div_pow]

@[simp] theorem fields_y_toNat : (fields op).y.toNat = op.toNat / 16 % 16 := by
  simp [fields, Nat.shiftRight_eq_div_pow]

@[simp] theorem fields_n_toNat : (fields op).n.toNat = op.toNat % 16 := by simp [fields]

@[simp] theorem fields_nn_toNat : (fields op).nn.toNat = op.toNat % 256 := by simp [fields]

@[simp] theorem fields_nnn_toNat : (fields op).nnn.toNat = op.toNat % 4096 := by simp [fields]

/-- A word masked to its low `k` bits is its remainder by `2 ^ k`. -/
theorem toNat_and_lowMask {k : Nat} (hk : k ≤ 16) :
    (op &&& BitVec.ofNat 16 (2 ^ k - 1)).toNat = op.toNat % 2 ^ k := by
  have hlt : 2 ^ k - 1 < 2 ^ 16 := by
    have := Nat.pow_le_pow_right (n := 2) (by decide) hk
    omega
  rw [BitVec.toNat_and, BitVec.toNat_ofNat, Nat.mod_eq_of_lt hlt, Nat.and_two_pow_sub_one_eq_mod]

/-- R52: nnn, zero-extended, is the opcode with d1 masked off. -/
theorem addrWord_fields_nnn : Machine.addrWord (fields op).nnn = op &&& 0x0FFF := by
  apply BitVec.eq_of_toNat_eq
  have hmask : (op &&& 0x0FFF).toNat = op.toNat % 4096 := toNat_and_lowMask op (k := 12) (by decide)
  rw [hmask, Machine.addrWord, BitVec.toNat_setWidth, fields_nnn_toNat]
  omega

/-- R52: nn, zero-extended, is the low byte of the opcode. -/
theorem setWidth_fields_nn : (fields op).nn.setWidth 16 = op &&& 0x00FF := by
  apply BitVec.eq_of_toNat_eq
  have hmask : (op &&& 0x00FF).toNat = op.toNat % 256 := toNat_and_lowMask op (k := 8) (by decide)
  rw [hmask, BitVec.toNat_setWidth, fields_nn_toNat]
  omega

end

/-- Settles O2, field by field. -/
theorem fieldsOfEveryOpcode : Obligations.FieldsOfEveryOpcode := fun op =>
  ⟨fields_d1_toNat op, fields_x_toNat op, fields_y_toNat op, fields_n_toNat op, fields_nn_toNat op, fields_nnn_toNat op,
    addrWord_fields_nnn op, setWidth_fields_nn op⟩

end Sys2Proof
end

section
/-! PROOFS. Encoding what was decoded gives the opcode back (30_encoding.md R51, R53, R55), so an opcode that no row of the
opcode map selects decodes to INVALID (R57): any other instruction's row selects its own opcode (the family EncodeRow). -/

namespace Sys2Proof

section
variable {op : Word} {d : Nibble}

/-- An opcode is the layout NNN of its own d1 and nnn (R52, R53). -/
theorem encodeNNN_fields (hd : (fields op).d1 = d) : encodeNNN d (fields op).nnn = op := by
  subst hd
  exact BitVec.extractLsb'_append_extractLsb' (w := 4) (len := 12)

/-- An opcode is the layout XNN of its own d1, x and nn (R52, R53). -/
theorem encodeXNN_fields {nn : Byte} (hd : (fields op).d1 = d) (hnn : (fields op).nn = nn) :
    encodeXNN d (fields op).x nn = op := by
  subst hd hnn
  simp only [encodeXNN, fields]
  rw [BitVec.extractLsb'_append_extractLsb'_eq_extractLsb' (by rfl),
    BitVec.extractLsb'_append_extractLsb'_eq_extractLsb' (by rfl)]
  exact BitVec.extractLsb'_eq_self

/-- An opcode is the layout XYN of its own d1, x, y and n (R52, R53). -/
theorem encodeXYN_fields {n : Nibble} (hd : (fields op).d1 = d) (hn : (fields op).n = n) :
    encodeXYN d (fields op).x (fields op).y n = op := by
  subst hd hn
  simp only [encodeXYN, fields]
  rw [BitVec.extractLsb'_append_extractLsb'_eq_extractLsb' (by rfl),
    BitVec.extractLsb'_append_extractLsb'_eq_extractLsb' (by rfl),
    BitVec.extractLsb'_append_extractLsb'_eq_extractLsb' (by rfl)]
  exact BitVec.extractLsb'_eq_self

theorem encode_decodeGroup0 (op : Word) : encode (decodeGroup0 op) = op := by
  unfold decodeGroup0
  split_ifs with h h
  · exact h.symm
  · exact h.symm
  · rfl

theorem encode_decodeGroup8 (hd : (fields op).d1 = 0x8) : encode (decodeGroup8 op (fields op)) = op := by
  unfold decodeGroup8
  split_ifs <;> simp only [encode]
  all_goals exact encodeXYN_fields hd ‹_›

theorem encode_decodeGroupE (hd : (fields op).d1 = 0xE) : encode (decodeGroupE op (fields op)) = op := by
  unfold decodeGroupE
  split_ifs <;> simp only [encode]
  all_goals exact encodeXNN_fields hd ‹_›

theorem encode_decodeGroupF (hd : (fields op).d1 = 0xF) : encode (decodeGroupF op (fields op)) = op := by
  unfold decodeGroupF
  split_ifs <;> simp only [encode]
  all_goals exact encodeXNN_fields hd ‹_›

/-- An instruction chosen by a test encodes to `op` when each choice does. -/
theorem encode_ite {c : Prop} [Decidable c] {i j : Instr} (hi : c → encode i = op) (hj : ¬ c → encode j = op) :
    encode (if c then i else j) = op :=
  iteInduction (motive := fun k => encode k = op) hi hj

/-- R51, R55: decoding loses nothing. Each branch on d1 is a group above, or a layout of the opcode's own fields. -/
theorem encode_decode (op : Word) : encode (decode op) = op := by
  unfold decode
  refine encode_ite (fun _ => encode_decodeGroup0 op) fun h0 => ?_
  refine encode_ite encodeNNN_fields fun h1 => ?_
  refine encode_ite encodeNNN_fields fun h2 => ?_
  refine encode_ite (encodeXNN_fields · rfl) fun h3 => ?_
  refine encode_ite (encodeXNN_fields · rfl) fun h4 => ?_
  refine encode_ite (fun h5 => encode_ite (encodeXYN_fields h5) fun _ => rfl) fun h5 => ?_
  refine encode_ite (encodeXNN_fields · rfl) fun h6 => ?_
  refine encode_ite (encodeXNN_fields · rfl) fun h7 => ?_
  refine encode_ite encode_decodeGroup8 fun h8 => ?_
  refine encode_ite (fun h9 => encode_ite (encodeXYN_fields h9) fun _ => rfl) fun h9 => ?_
  refine encode_ite encodeNNN_fields fun hA => ?_
  refine encode_ite encodeNNN_fields fun hB => ?_
  refine encode_ite (encodeXNN_fields · rfl) fun hC => ?_
  refine encode_ite (encodeXYN_fields · rfl) fun hD => ?_
  refine encode_ite encode_decodeGroupE fun hE => encode_decodeGroupF ?_
  bv_omega

end

/-- Every instruction's row selects its opcode (R53, R54): the family EncodeRow, assembled. -/
theorem encodeRow_statement : ∀ i : Instr, Laws.EncodeRow.Statement i
  | .cls => Laws.EncodeRow.cls
  | .ret => Laws.EncodeRow.ret
  | .jp nnn => Laws.EncodeRow.jp nnn
  | .call nnn => Laws.EncodeRow.call nnn
  | .seImm x nn => Laws.EncodeRow.seImm x nn
  | .sneImm x nn => Laws.EncodeRow.sneImm x nn
  | .seReg x y => Laws.EncodeRow.seReg x y
  | .ldImm x nn => Laws.EncodeRow.ldImm x nn
  | .addImm x nn => Laws.EncodeRow.addImm x nn
  | .ldReg x y => Laws.EncodeRow.ldReg x y
  | .orReg x y => Laws.EncodeRow.orReg x y
  | .andReg x y => Laws.EncodeRow.andReg x y
  | .xorReg x y => Laws.EncodeRow.xorReg x y
  | .addReg x y => Laws.EncodeRow.addReg x y
  | .sub x y => Laws.EncodeRow.sub x y
  | .shr x y => Laws.EncodeRow.shr x y
  | .subn x y => Laws.EncodeRow.subn x y
  | .shl x y => Laws.EncodeRow.shl x y
  | .sneReg x y => Laws.EncodeRow.sneReg x y
  | .ldI nnn => Laws.EncodeRow.ldI nnn
  | .jpV0 nnn => Laws.EncodeRow.jpV0 nnn
  | .rnd x nn => Laws.EncodeRow.rnd x nn
  | .drw x y n => Laws.EncodeRow.drw x y n
  | .skp x => Laws.EncodeRow.skp x
  | .sknp x => Laws.EncodeRow.sknp x
  | .ldVxDt x => Laws.EncodeRow.ldVxDt x
  | .ldVxK x => Laws.EncodeRow.ldVxK x
  | .ldDtVx x => Laws.EncodeRow.ldDtVx x
  | .ldStVx x => Laws.EncodeRow.ldStVx x
  | .addI x => Laws.EncodeRow.addI x
  | .ldF x => Laws.EncodeRow.ldF x
  | .ldB x => Laws.EncodeRow.ldB x
  | .ldStore x => Laws.EncodeRow.ldStore x
  | .ldLoad x => Laws.EncodeRow.ldLoad x
  | .invalid op => Laws.EncodeRow.invalid op

/-- Every instruction but INVALID has a row of its own in the opcode map (R54). -/
theorem exists_row_of_ne_invalid {i : Instr} (h : ∀ op, i ≠ .invalid op) :
    ∃ row ∈ opcodeMap, row.mnemonic = i.mnemonic := by
  cases i with
  | invalid op => exact absurd rfl (h op)
  | _ => simp only [Instr.mnemonic]; decide

/-- R57: an opcode that matches no row of R54 decodes to INVALID. -/
theorem decode_eq_invalid_of_inInvalidSpace {op : Word} (h : inInvalidSpace op = true) : decode op = .invalid op := by
  by_cases hi : ∃ op', decode op = .invalid op'
  · obtain ⟨op', hop'⟩ := hi
    have hencode : encode (decode op) = op' := by rw [hop']; rfl
    rw [hop', ← hencode, encode_decode]
  · obtain ⟨row, hmem, hrow⟩ := exists_row_of_ne_invalid (not_exists.mp hi)
    have hsel : row.selects op = true := by
      simpa only [encode_decode] using encodeRow_statement (decode op) row hmem hrow
    have hnot : row.selects op = false := by simpa using List.all_eq_true.mp h row hmem
    exact absurd hsel (by simp [hnot])

end Sys2Proof
end

section
/-! PROOFS. The Cycle in mode Running (40_cycle.md R61, R64 to R66): the step is the decoded instruction's, and an opcode of
the invalid space does nothing. -/

namespace Sys2Proof.Machine

/-- R64, R65: a Cycle in mode Running executes the opcode at `pc`, with `pc` past it. -/
theorem step_running {s : State} (hop : nextOp s = .cycle) (hm : s.mode = .running) (hpc : s.pc.toNat + 1 < 4096) :
    step s = exec (decode (s.M.read s.pc.toNat ++ s.M.read (s.pc.toNat + 1))) s.afterTaking.fetched :=
  (step_of_cycle hop).trans (cycle_running (s := s.afterTaking) hm (State.fetchWord_eq_some hpc))

/-- R66: an opcode of the invalid space executes as nothing. -/
@[simp] theorem exec_invalid (op : Word) (s : State) : exec (.invalid op) s = .next s := rfl

/-- Settles O41: an opcode no row selects decodes to INVALID, and INVALID executes as nothing. -/
theorem invalidOpcodeIsANoOp : Obligations.InvalidOpcodeIsANoOp := by
  refine ⟨exec_invalid, fun s hop hm hpc hinv => ?_⟩
  rw [step_running hop hm hpc, decode_eq_invalid_of_inInvalidSpace hinv, exec_invalid]

end Sys2Proof.Machine
end

section
/-! PROOFS. Control flow that writes `pc` only (41_control_flow.md R70, R73 to R76): the frame of a jump and of a conditional
skip, and an equation of `exec` per instruction. -/

namespace Sys2Proof.Machine

/-- R52, R70: nnn, zero-extended, has the value of nnn. -/
@[simp] theorem addrWord_toNat (nnn : Addr) : (addrWord nnn).toNat = nnn.toNat :=
  BitVec.toNat_setWidth_of_le (by decide)

namespace State
variable (s : State)

/-- Writing `pc` changes nothing else (R18). -/
theorem setPc_frame (target : Word) : Frame { pc := true } s (s.setPc target) := by
  constructor <;> simp

/-- A conditional skip changes nothing but `pc` (R67). -/
theorem skipIf_frame (b : Bool) : Frame { pc := true } s (s.skipIf b) :=
  s.skipIf_eq b ▸ s.setPc_frame _

end State

section
variable (x y : Nibble) (nn : Byte) (nnn : Addr) (s : State)

/-- R70. -/
@[simp] theorem exec_jp : exec (.jp nnn) s = .next (s.setPc (addrWord nnn)) := rfl

/-- R73. -/
@[simp] theorem exec_seImm : exec (.seImm x nn) s = .next (s.skipIf (s.readV x == nn)) := rfl

/-- R74. -/
@[simp] theorem exec_sneImm : exec (.sneImm x nn) s = .next (s.skipIf (s.readV x != nn)) := rfl

/-- R75. -/
@[simp] theorem exec_seReg : exec (.seReg x y) s = .next (s.skipIf (s.readV x == s.readV y)) := rfl

/-- R76. -/
@[simp] theorem exec_sneReg : exec (.sneReg x y) s = .next (s.skipIf (s.readV x != s.readV y)) := rfl

end

/-- R67: an instruction that executes as a skip on `b` moves `pc` by 2 more exactly when the condition `b` tests holds. -/
theorem exec_skip_of_iff {i : Instr} {s : State} {b : Bool} {c : Prop} [Decidable c] (hexec : exec i s = .next (s.skipIf b))
    (hb : b = true ↔ c) :
    ∃ t, exec i s = .next t ∧ t.pc = (if c then s.pc + 2 else s.pc) ∧ Frame { pc := true } s t :=
  ⟨s.skipIf b, hexec, by simp only [State.skipIf_pc, hb], s.skipIf_frame b⟩

/-- Settles O38: the target is nnn zero-extended, and a jump writes nothing but `pc`. -/
theorem jumpSetsPc : Obligations.JumpSetsPc := fun nnn s =>
  ⟨s.setPc (addrWord nnn), exec_jp nnn s, addrWord_toNat nnn, s.setPc_frame _⟩

/-- Settles O40: each of the four is a skip on its own comparison, for every x and y. -/
theorem conditionalSkips : Obligations.ConditionalSkips := fun x y nn s =>
  ⟨exec_skip_of_iff (exec_seImm x nn s) beq_iff_eq, exec_skip_of_iff (exec_sneImm x nn s) bne_iff_ne,
    exec_skip_of_iff (exec_seReg x y s) beq_iff_eq, exec_skip_of_iff (exec_sneReg x y s) bne_iff_ne⟩

end Sys2Proof.Machine
end

section
/-! PROOFS. Register loads and the operations that write no flag (42_register_alu.md R77 to R82): the frame of a register
write, and an equation of `exec` per instruction. -/

namespace Sys2Proof.Machine

/-- Writing one register changes no other register and nothing else (R14), so any frame that names it allows the write. -/
theorem State.writeV_frame (s : State) {x : Nibble} (v : Byte) {c : Changes} (hx : x ∈ c.regs) :
    Frame c s (s.writeV x v) := by
  constructor
  case regs => exact fun r hr => s.readV_writeV_of_ne v fun hrx => hr (hrx ▸ hx)
  all_goals simp

section
variable (x y : Nibble) (nn : Byte) (s : State)

/-- R77. -/
@[simp] theorem exec_ldImm : exec (.ldImm x nn) s = .next (s.writeV x nn) := rfl

/-- R78. -/
@[simp] theorem exec_addImm : exec (.addImm x nn) s = .next (s.writeV x (s.readV x + nn)) := rfl

/-- R79. -/
@[simp] theorem exec_ldReg : exec (.ldReg x y) s = .next (s.writeV x (s.readV y)) := rfl

/-- R80. -/
@[simp] theorem exec_orReg : exec (.orReg x y) s = .next (s.writeV x (s.readV x ||| s.readV y)) := rfl

/-- R81. -/
@[simp] theorem exec_andReg : exec (.andReg x y) s = .next (s.writeV x (s.readV x &&& s.readV y)) := rfl

/-- R82. -/
@[simp] theorem exec_xorReg : exec (.xorReg x y) s = .next (s.writeV x (s.readV x ^^^ s.readV y)) := rfl

end

/-- An instruction that executes as the write of `v` to Vx reaches a state where Vx is `v`, and it writes VF only where x
names it (R15). -/
theorem exec_writeV {i : Instr} {s : State} {x : Nibble} {v : Byte} {Q : State → Prop}
    (hexec : exec i s = .next (s.writeV x v)) (hQ : ∀ t : State, t.readV x = v → Q t) :
    ∃ t, exec i s = .next t ∧ Q t ∧ Frame { regs := [x] } s t :=
  ⟨s.writeV x v, hexec, hQ _ (s.readV_writeV_self x v), s.writeV_frame v (List.mem_singleton_self x)⟩

/-- Settles O42: the byte written is the immediate, or a sum of bytes, which the width of a byte reduces modulo 256. -/
theorem immediateLoadAndAdd : Obligations.ImmediateLoadAndAdd := fun x nn s =>
  ⟨exec_writeV (exec_ldImm x nn s) fun _ => id,
    exec_writeV (exec_addImm x nn s) fun _ ht => by rw [ht, BitVec.toNat_add]⟩

/-- Settles O43: the byte written is Vy, or the bitwise operation on both, taken bit by bit. -/
theorem movesAndBitwiseOperations : Obligations.MovesAndBitwiseOperations := fun x y s =>
  ⟨exec_writeV (exec_ldReg x y s) fun _ => id,
    exec_writeV (exec_orReg x y s) fun _ ht _ => by rw [ht, BitVec.getLsbD_or],
    exec_writeV (exec_andReg x y s) fun _ ht _ => by rw [ht, BitVec.getLsbD_and],
    exec_writeV (exec_xorReg x y s) fun _ ht _ => by rw [ht, BitVec.getLsbD_xor]⟩

end Sys2Proof.Machine
end

section
/-! PROOFS. Loads of the index register (43_index_memory.md R90, R92): the frame of a write to I, the value of a glyph's
address, and an equation of `exec` per instruction. -/

namespace Sys2Proof.Machine

/-- Writing I changes nothing else (R17). -/
theorem State.setI_frame (s : State) (v : Word) : Frame { I := true } s (s.setI v) := by
  constructor <;> simp

/-- R92: five times the whole byte is at most 1275, so the product in 16 bits does not wrap. -/
@[simp] theorem glyphAddress_toNat (v : Byte) : (glyphAddress v).toNat = v.toNat * 5 := by
  have hwidth : (v.setWidth 16).toNat = v.toNat := BitVec.toNat_setWidth_of_le (by decide)
  have hsize : (BitVec.ofNat 16 Config.glyphSize).toNat = 5 := rfl
  have hbound : v.toNat * 5 < 2 ^ 16 := by have := v.isLt; omega
  rw [glyphAddress, BitVec.toNat_mul, hwidth, hsize, Nat.mod_eq_of_lt hbound]

section
variable (x : Nibble) (nnn : Addr) (s : State)

/-- R90. -/
@[simp] theorem exec_ldI : exec (.ldI nnn) s = .next (s.setI (addrWord nnn)) := rfl

/-- R92. -/
@[simp] theorem exec_ldF : exec (.ldF x) s = .next (s.setI (glyphAddress (s.readV x))) := rfl

end

/-- Settles O47: nnn is zero-extended, and the glyph's address is five times Vx without wrap. -/
theorem indexLoads : Obligations.IndexLoads := fun nnn x s =>
  ⟨⟨s.setI (addrWord nnn), exec_ldI nnn s, addrWord_toNat nnn, s.setI_frame _⟩,
    ⟨s.setI (glyphAddress (s.readV x)), exec_ldF x s, glyphAddress_toNat _, s.setI_frame _⟩⟩

end Sys2Proof.Machine
end

section
/-! PROOFS. The display's clear, the timers and the key wait (44_timer_key_display.md R96, R100 to R103): the pixels of a
clear framebuffer, the events of a write to ST, the frame of each write, and an equation of `exec` per instruction. -/

namespace Sys2Proof.Machine

/-- R25, R96: a clear framebuffer has no pixel on. -/
@[simp] theorem FrameBuffer.allOff_pixel (row : Fin 32) (col : Fin 64) : FrameBuffer.allOff.pixel row col = false := by
  simp [FrameBuffer.pixel, FrameBuffer.allOff, Vector.get_eq_getElem]

namespace State
variable (s : State)

/-- Drawing a framebuffer and reporting it changes nothing else (R25, R31). -/
theorem setFB_emit_frame (fb : FrameBuffer) (e : Event) :
    Frame { FB := true, trace := true } s ((s.setFB fb).emit e) := by
  constructor <;> simp

/-- Writing DT changes nothing else (R101). -/
theorem setDT_frame (v : Byte) : Frame { DT := true } s (s.setDT v) := by
  constructor <;> simp

/-- Entering a mode changes nothing else (R103). -/
theorem setMode_frame (m : Mode) : Frame { mode := true } s (s.setMode m) := by
  constructor <;> simp

/-- Writing ST changes nothing else but the trace (R102). -/
theorem writeST_frame (v : Byte) : Frame { ST := true, trace := true } s (s.writeST v) := by
  constructor <;> simp

/-- The events of a write to ST (R102, R120): a start exactly on 0 to nonzero, a stop exactly on nonzero to 0. -/
theorem writeST_trace (v : Byte) :
    (s.writeST v).trace = s.trace ++ (if s.ST = 0 ∧ v ≠ 0 then [.soundStart] else []) ++
      (if s.ST ≠ 0 ∧ v = 0 then [.soundStop] else []) := by
  obtain ⟨hST, hv, hs⟩ | ⟨hST, hv, hs⟩ | ⟨hiff, hs⟩ := s.writeST_cases v
  · rw [hs, if_pos ⟨hST, hv⟩, if_neg fun h : s.ST ≠ 0 ∧ v = 0 => hv h.2]
    simp
  · rw [hs, if_neg fun h : s.ST = 0 ∧ v ≠ 0 => hST h.1, if_pos ⟨hST, hv⟩]
    simp
  · rw [hs, if_neg fun h : s.ST = 0 ∧ v ≠ 0 => h.2 (hiff.mp h.1),
      if_neg fun h : s.ST ≠ 0 ∧ v = 0 => h.1 (hiff.mpr h.2)]
    simp

end State

section
variable (x : Nibble) (s : State)

/-- R96. -/
@[simp] theorem exec_cls : exec .cls s = .next ((s.setFB FrameBuffer.allOff).emit .clear) := rfl

/-- R100. -/
@[simp] theorem exec_ldVxDt : exec (.ldVxDt x) s = .next (s.writeV x s.DT) := rfl

/-- R101. -/
@[simp] theorem exec_ldDtVx : exec (.ldDtVx x) s = .next (s.setDT (s.readV x)) := rfl

/-- R102. -/
@[simp] theorem exec_ldStVx : exec (.ldStVx x) s = .next (s.writeST (s.readV x)) := rfl

/-- R103. -/
@[simp] theorem exec_ldVxK : exec (.ldVxK x) s = .next (s.setMode (.awaitingKey x)) := rfl

end

/-- Settles O52: the framebuffer drawn has every pixel off, whatever it was, and Clear is the one event. -/
theorem clearTurnsEveryPixelOff : Obligations.ClearTurnsEveryPixelOff := fun s =>
  ⟨(s.setFB FrameBuffer.allOff).emit .clear, exec_cls s, FrameBuffer.allOff_pixel, rfl, s.setFB_emit_frame _ _⟩

/-- Settles O55: one is a register write, the other a write to DT, and neither frame lets the trace change. -/
theorem delayTimerMoves : Obligations.DelayTimerMoves := fun x s =>
  ⟨exec_writeV (exec_ldVxDt x s) fun _ => id,
    ⟨s.setDT (s.readV x), exec_ldDtVx x s, s.setDT_DT _, s.setDT_frame _⟩⟩

/-- Settles O56: the write to ST reports its own transition. -/
theorem soundTimerWrite : Obligations.SoundTimerWrite := fun x s =>
  ⟨s.writeST (s.readV x), exec_ldStVx x s, s.writeST_ST _, s.writeST_trace _, s.writeST_frame _⟩

/-- Settles O57: the mode is the only write, so Vx keeps its value. -/
theorem waitForKeySuspends : Obligations.WaitForKeySuspends := fun x s =>
  ⟨s.setMode (.awaitingKey x), exec_ldVxK x s, s.setMode_mode _, s.setMode_frame _⟩

end Sys2Proof.Machine
end

section
/-! PROOFS. The host's Tick (60_exceptions.md R113): the value and the zero of a timer's decrement, and what a tick makes of
each timer, of the trace and of everything else. -/

namespace Sys2Proof.Machine

section
variable (v : Byte)

/-- R20, R113: a decrement is the natural subtraction, which saturates at 0. -/
@[simp] theorem countDown_toNat : (countDown v).toNat = v.toNat - 1 := by
  by_cases hv : v = 0
  · subst hv
    rfl
  · rw [countDown, if_neg hv]
    bv_omega

/-- A timer that counts down to 0 was at 0 or at 1. -/
theorem countDown_eq_zero_iff : countDown v = 0 ↔ v = 0 ∨ v = 1 := by
  rw [← BitVec.toNat_inj, countDown_toNat]
  bv_omega

/-- A timer reaches 0 from a nonzero value exactly from 1. -/
theorem countDown_edge_iff : v ≠ 0 ∧ countDown v = 0 ↔ v = 1 := by
  rw [countDown_eq_zero_iff]
  bv_omega

end

section
variable (s : State)

@[simp] theorem tick_DT : (tick s).DT = countDown s.DT := by simp [tick]

@[simp] theorem tick_ST : (tick s).ST = countDown s.ST := by simp [tick]

/-- R113: a tick reports the sound's stop exactly when it takes ST from 1 to 0, and no start, since a timer at 0 stays. -/
theorem tick_trace : (tick s).trace = s.trace ++ (if s.ST = 1 then [.soundStop] else []) := by
  have hstart : ¬ (s.ST = 0 ∧ countDown s.ST ≠ 0) := fun h => h.2 ((countDown_eq_zero_iff _).mpr (.inl h.1))
  rw [tick, State.writeST_trace, State.setDT_ST, State.setDT_trace, if_neg hstart, List.append_nil]
  simp only [countDown_edge_iff]

/-- A tick changes nothing but the timers and the trace (R113). -/
theorem tick_frame : Frame { DT := true, ST := true, trace := true } s (tick s) := by
  constructor <;> simp [tick]

end

/-- Settles O11: the step is the tick, whose timers, trace and frame are the lemmas above. -/
theorem tickCountsTimersDown : Obligations.TickCountsTimersDown := fun s hop =>
  ⟨tick s.afterTaking, step_of_tick hop, by simp, by simp, tick_trace s.afterTaking, tick_frame s.afterTaking⟩

end Sys2Proof.Machine
end

section
/-! PROOFS. Decoding what was encoded gives the instruction back (30_encoding.md R51 to R55): each layout of R53 as a number,
the fields of each layout, and `decode` at the opcode of each instruction. -/

namespace Sys2Proof

/-- Bits laid out one after the other are digits: the high part counts in units of two to the low part's width. -/
theorem toNat_append_eq_add {v w : Nat} (a : BitVec v) (b : BitVec w) : (a ++ b).toNat = a.toNat * 2 ^ w + b.toNat := by
  rw [BitVec.toNat_append, ← Nat.shiftLeft_add_eq_or_of_lt b.isLt, Nat.shiftLeft_eq]

section
variable (d x y n : Nibble) (nn : Byte) (nnn : Addr)

theorem encodeNNN_toNat : (encodeNNN d nnn).toNat = d.toNat * 4096 + nnn.toNat := toNat_append_eq_add d nnn

theorem encodeXNN_toNat : (encodeXNN d x nn).toNat = d.toNat * 4096 + x.toNat * 256 + nn.toNat := by
  have h : (encodeXNN d x nn).toNat = (d ++ x ++ nn).toNat := rfl
  rw [h]
  simp only [toNat_append_eq_add]
  omega

theorem encodeXYN_toNat : (encodeXYN d x y n).toNat = d.toNat * 4096 + x.toNat * 256 + y.toNat * 16 + n.toNat := by
  have h : (encodeXYN d x y n).toNat = (d ++ x ++ y ++ n).toNat := rfl
  rw [h]
  simp only [toNat_append_eq_add]
  omega

@[simp] theorem fields_encodeNNN_d1 : (fields (encodeNNN d nnn)).d1 = d := by
  apply BitVec.eq_of_toNat_eq
  rw [fields_d1_toNat, encodeNNN_toNat]
  omega

@[simp] theorem fields_encodeNNN_nnn : (fields (encodeNNN d nnn)).nnn = nnn := by
  apply BitVec.eq_of_toNat_eq
  rw [fields_nnn_toNat, encodeNNN_toNat]
  omega

@[simp] theorem fields_encodeXNN_d1 : (fields (encodeXNN d x nn)).d1 = d := by
  apply BitVec.eq_of_toNat_eq
  rw [fields_d1_toNat, encodeXNN_toNat]
  omega

@[simp] theorem fields_encodeXNN_x : (fields (encodeXNN d x nn)).x = x := by
  apply BitVec.eq_of_toNat_eq
  rw [fields_x_toNat, encodeXNN_toNat]
  omega

@[simp] theorem fields_encodeXNN_nn : (fields (encodeXNN d x nn)).nn = nn := by
  apply BitVec.eq_of_toNat_eq
  rw [fields_nn_toNat, encodeXNN_toNat]
  omega

@[simp] theorem fields_encodeXYN_d1 : (fields (encodeXYN d x y n)).d1 = d := by
  apply BitVec.eq_of_toNat_eq
  rw [fields_d1_toNat, encodeXYN_toNat]
  omega

@[simp] theorem fields_encodeXYN_x : (fields (encodeXYN d x y n)).x = x := by
  apply BitVec.eq_of_toNat_eq
  rw [fields_x_toNat, encodeXYN_toNat]
  omega

@[simp] theorem fields_encodeXYN_y : (fields (encodeXYN d x y n)).y = y := by
  apply BitVec.eq_of_toNat_eq
  rw [fields_y_toNat, encodeXYN_toNat]
  omega

@[simp] theorem fields_encodeXYN_n : (fields (encodeXYN d x y n)).n = n := by
  apply BitVec.eq_of_toNat_eq
  rw [fields_n_toNat, encodeXYN_toNat]
  omega

end

/-- R51, R55: a well-formed instruction is what its opcode decodes to. An INVALID opcode matches no row; the two opcodes
of group 0 are fixed; every other instruction is found by its group and the fields of its layout. -/
theorem decode_encode {i : Instr} (hwf : i.wellFormed = true) : decode (encode i) = i := by
  cases i with
  | invalid op => exact decode_eq_invalid_of_inInvalidSpace hwf
  | cls => rfl
  | ret => rfl
  | _ => simp [encode, decode, decodeGroup8, decodeGroupE, decodeGroupF]

/-- R40, R51: an opcode is its own two bytes, high byte first. -/
theorem opcodeOfBytes_extractLsb' (op : Word) : opcodeOfBytes (op.extractLsb' 8 8) (op.extractLsb' 0 8) = op :=
  BitVec.extractLsb'_append_extractLsb' (w := 8) (len := 8)

/-- Settles O3: the opcode is decoded by the lemma above, and the two bytes make up the opcode. -/
theorem decodeOfEncode : Obligations.DecodeOfEncode := fun i hwf =>
  ⟨decode_encode hwf, fun rest => by
    rw [encodeBytes, List.cons_append, List.cons_append, decodeBytes, opcodeOfBytes_extractLsb', decode_encode hwf]
    rfl⟩

end Sys2Proof
end

section
/-! PROOFS. The opcode map (30_encoding.md R54, R57): what a row says of the fields of the opcodes it selects, so that the row
selects exactly the opcodes that decode to its instruction; and the invalid space, group by group. -/

namespace Sys2Proof

/-! ### What a row fixes -/

section
variable (op : Word)

/-- R52: d1 depends on the top digit only. -/
theorem fields_and_d1 : (fields (op &&& 0xF000)).d1 = (fields op).d1 :=
  BitVec.extractLsb'_and.trans BitVec.and_allOnes

/-- R52: n depends on the last digit only. -/
theorem fields_and_n : (fields (op &&& 0x000F)).n = (fields op).n :=
  BitVec.extractLsb'_and.trans BitVec.and_allOnes

/-- R52: nn depends on the low byte only. -/
theorem fields_and_nn : (fields (op &&& 0x00FF)).nn = (fields op).nn :=
  BitVec.extractLsb'_and.trans BitVec.and_allOnes

end

namespace OpcodeRow
variable {row : OpcodeRow} {op : Word}

/-- What a row's mask fixes, every part of the mask fixes. -/
theorem and_eq_of_selects (h : row.selects op = true) {part : Word} (hpart : row.mask &&& part = part) :
    op &&& part = row.bits &&& part := by
  have hbits : op &&& row.mask = row.bits := beq_iff_eq.mp h
  rw [← hbits, BitVec.and_assoc, hpart]

/-- A row that fixes the top digit fixes d1. -/
theorem fields_d1_of_selects (h : row.selects op = true) (hmask : row.mask &&& 0xF000 = 0xF000) :
    (fields op).d1 = (fields row.bits).d1 := by
  rw [← fields_and_d1 op, and_eq_of_selects h hmask, fields_and_d1]

/-- A row that fixes the last digit fixes n. -/
theorem fields_n_of_selects (h : row.selects op = true) (hmask : row.mask &&& 0x000F = 0x000F) :
    (fields op).n = (fields row.bits).n := by
  rw [← fields_and_n op, and_eq_of_selects h hmask, fields_and_n]

/-- A row that fixes the low byte fixes nn. -/
theorem fields_nn_of_selects (h : row.selects op = true) (hmask : row.mask &&& 0x00FF = 0x00FF) :
    (fields op).nn = (fields row.bits).nn := by
  rw [← fields_and_nn op, and_eq_of_selects h hmask, fields_and_nn]

/-- A row that fixes all 16 bits selects one opcode. -/
theorem eq_of_selects (h : row.selects op = true) (hmask : row.mask &&& 0xFFFF = 0xFFFF) : op = row.bits := by
  calc op = op &&& 0xFFFF := BitVec.and_allOnes.symm
    _ = row.bits &&& 0xFFFF := and_eq_of_selects h hmask
    _ = row.bits := BitVec.and_allOnes

end OpcodeRow

/-- Every row fixes what the decoding procedure tests in the row's group (R55): d1 always, all 16 bits in group 0, n in groups
5, 8 and 9, nn in groups E and F. -/
theorem opcodeMap_masks : ∀ row ∈ opcodeMap,
    row.mask &&& 0xF000 = 0xF000 ∧
    ((fields row.bits).d1 = 0x0 → row.mask &&& 0xFFFF = 0xFFFF) ∧
    ((fields row.bits).d1 ∈ [0x5#4, 0x8#4, 0x9#4] → row.mask &&& 0x000F = 0x000F) ∧
    ((fields row.bits).d1 ∈ [0xE#4, 0xF#4] → row.mask &&& 0x00FF = 0x00FF) := by decide

/-- R54, R55: each row's own match decodes to the row's instruction. -/
theorem opcodeMap_bits : ∀ row ∈ opcodeMap, (decode row.bits).mnemonic = row.mnemonic := by decide

/-- The map has one row per name, and none is INVALID (R54). -/
theorem opcodeMap_mnemonics : (opcodeMap.map (·.mnemonic)).Nodup ∧ ∀ row ∈ opcodeMap, row.mnemonic ≠ "INVALID" := by decide

/-! ### Which instruction an opcode is depends on what its group tests -/

/-- Two instructions chosen by one test are of one kind when each choice is. -/
theorem mnemonic_ite {c : Prop} [Decidable c] {i i' j j' : Instr} (hi : c → i.mnemonic = i'.mnemonic)
    (hj : ¬ c → j.mnemonic = j'.mnemonic) : (if c then i else j).mnemonic = (if c then i' else j').mnemonic := by
  by_cases h : c
  · rw [if_pos h, if_pos h, hi h]
  · rw [if_neg h, if_neg h, hj h]

section
variable {op op' : Word}

theorem mnemonic_decodeGroup8_congr (hn : (fields op).n = (fields op').n) :
    (decodeGroup8 op (fields op)).mnemonic = (decodeGroup8 op' (fields op')).mnemonic := by
  unfold decodeGroup8
  rw [hn]
  repeat refine mnemonic_ite (fun _ => rfl) fun _ => ?_
  rfl

theorem mnemonic_decodeGroupE_congr (hnn : (fields op).nn = (fields op').nn) :
    (decodeGroupE op (fields op)).mnemonic = (decodeGroupE op' (fields op')).mnemonic := by
  unfold decodeGroupE
  rw [hnn]
  repeat refine mnemonic_ite (fun _ => rfl) fun _ => ?_
  rfl

theorem mnemonic_decodeGroupF_congr (hnn : (fields op).nn = (fields op').nn) :
    (decodeGroupF op (fields op)).mnemonic = (decodeGroupF op' (fields op')).mnemonic := by
  unfold decodeGroupF
  rw [hnn]
  repeat refine mnemonic_ite (fun _ => rfl) fun _ => ?_
  rfl

/-- R55: two opcodes that agree in what the procedure tests in their group decode to the same instruction but for its
operands. -/
theorem mnemonic_decode_congr (hd : (fields op).d1 = (fields op').d1) (h0 : (fields op').d1 = 0x0 → op = op')
    (hn : (fields op').d1 ∈ [0x5#4, 0x8#4, 0x9#4] → (fields op).n = (fields op').n)
    (hnn : (fields op').d1 ∈ [0xE#4, 0xF#4] → (fields op).nn = (fields op').nn) :
    (decode op).mnemonic = (decode op').mnemonic := by
  unfold decode
  simp only [hd]
  refine mnemonic_ite (fun hg => by rw [h0 hg]) fun hg0 => ?_
  iterate 4 refine mnemonic_ite (fun _ => rfl) fun _ => ?_
  refine mnemonic_ite (fun hg => ?_) fun hg5 => ?_
  · rw [hn (by simp [hg])]
    exact mnemonic_ite (fun _ => rfl) fun _ => rfl
  iterate 2 refine mnemonic_ite (fun _ => rfl) fun _ => ?_
  refine mnemonic_ite (fun hg => mnemonic_decodeGroup8_congr (hn (by simp [hg]))) fun hg8 => ?_
  refine mnemonic_ite (fun hg => ?_) fun hg9 => ?_
  · rw [hn (by simp [hg])]
    exact mnemonic_ite (fun _ => rfl) fun _ => rfl
  iterate 4 refine mnemonic_ite (fun _ => rfl) fun _ => ?_
  refine mnemonic_ite (fun hg => mnemonic_decodeGroupE_congr (hnn (by simp [hg]))) fun hgE => ?_
  have hgF : (fields op').d1 = 0xF := by bv_omega
  exact mnemonic_decodeGroupF_congr (hnn (by simp [hgF]))

/-- R54, R55: an opcode that a row selects decodes to the row's instruction. -/
theorem mnemonic_decode_of_selects {row : OpcodeRow} (hrow : row ∈ opcodeMap) (h : row.selects op = true) :
    (decode op).mnemonic = row.mnemonic := by
  obtain ⟨hd1, hall, hn, hnn⟩ := opcodeMap_masks row hrow
  rw [← opcodeMap_bits row hrow]
  exact mnemonic_decode_congr (OpcodeRow.fields_d1_of_selects h hd1) (fun hg => OpcodeRow.eq_of_selects h (hall hg))
    (fun hg => OpcodeRow.fields_n_of_selects h (hn hg)) (fun hg => OpcodeRow.fields_nn_of_selects h (hnn hg))

end

section
variable (op : Word)

/-- R54: a row selects exactly the opcodes of its instruction. -/
theorem selects_iff_mnemonic_decode {row : OpcodeRow} (hrow : row ∈ opcodeMap) :
    row.selects op = true ↔ (decode op).mnemonic = row.mnemonic := by
  refine ⟨mnemonic_decode_of_selects hrow, fun h => ?_⟩
  simpa only [encode_decode] using encodeRow_statement (decode op) row hrow h.symm

/-- Rows have different names, so at most one selects an opcode (R54). -/
theorem length_filter_selects_le_one : (opcodeMap.filter fun row => row.selects op).length ≤ 1 := by
  have hname : ∀ row ∈ opcodeMap, row.selects op = true ↔ ((· == (decode op).mnemonic) ∘ (·.mnemonic)) row = true := by
    intro row hrow
    rw [selects_iff_mnemonic_decode op hrow, Function.comp_apply, beq_iff_eq, eq_comm]
  calc (opcodeMap.filter fun row => row.selects op).length
      = opcodeMap.countP ((· == (decode op).mnemonic) ∘ (·.mnemonic)) := by
        rw [← List.countP_eq_length_filter, List.countP_congr hname]
    _ = (opcodeMap.map (·.mnemonic)).count (decode op).mnemonic := by rw [List.count_eq_countP, List.countP_map]
    _ ≤ 1 := List.nodup_iff_count_le_one.mp opcodeMap_mnemonics.1 _

/-- R57: INVALID is the complement of the map. -/
theorem decode_eq_invalid_iff : decode op = .invalid op ↔ ∀ row ∈ opcodeMap, row.selects op = false := by
  refine ⟨fun h row hrow => Bool.eq_false_iff.mpr fun hsel => ?_,
    fun h => decode_eq_invalid_of_inInvalidSpace (List.all_eq_true.mpr fun row hrow => by simp [h row hrow])⟩
  have hmnemonic := mnemonic_decode_of_selects hrow hsel
  rw [h] at hmnemonic
  exact opcodeMap_mnemonics.2 row hrow hmnemonic.symm

/-- R55, R57: what an opcode decodes to is well formed; where it is INVALID, it carries that same opcode. -/
theorem wellFormed_decode : (decode op).wellFormed = true := by
  cases hi : decode op with
  | invalid op' =>
    have hop' : op' = op := by rw [← encode_decode op, hi]; rfl
    subst hop'
    exact List.all_eq_true.mpr fun row hrow => by simp [(decode_eq_invalid_iff op').mp hi row hrow]
  | _ => rfl

end

/-- Settles O5: a row selects the opcodes of its own instruction, and INVALID is what is left. -/
theorem decodingFollowsTheOpcodeMap : Obligations.DecodingFollowsTheOpcodeMap := fun op =>
  ⟨fun _ => selects_iff_mnemonic_decode op, length_filter_selects_le_one op, (decode_eq_invalid_iff op).symm⟩

/-- Settles O4: decoding loses nothing, and INVALID is answered in the invalid space only. -/
theorem encodeOfDecode : Obligations.EncodeOfDecode := fun op => ⟨wellFormed_decode op, encode_decode op⟩

/-- Settles O1: the words are fixed, so the decoder is run on each. -/
theorem opcodeMapWordsDecode : Obligations.OpcodeMapWordsDecode := by
  unfold Obligations.OpcodeMapWordsDecode
  decide

end Sys2Proof
end

section
/-! PROOFS. The invalid space, group by group (30_encoding.md R55, R57): what `decode` is in each group that can answer
INVALID, and when that group's choice does. -/

namespace Sys2Proof

section
variable {op : Word}

/-! ### The group an opcode is decoded in -/

theorem decode_of_group0 (h : (fields op).d1 = 0x0) : decode op = decodeGroup0 op := by simp [decode, h]

theorem decode_of_group5 (h : (fields op).d1 = 0x5) :
    decode op = if (fields op).n = 0 then .seReg (fields op).x (fields op).y else .invalid op := by simp [decode, h]

theorem decode_of_group8 (h : (fields op).d1 = 0x8) : decode op = decodeGroup8 op (fields op) := by simp [decode, h]

theorem decode_of_group9 (h : (fields op).d1 = 0x9) :
    decode op = if (fields op).n = 0 then .sneReg (fields op).x (fields op).y else .invalid op := by simp [decode, h]

theorem decode_of_groupE (h : (fields op).d1 = 0xE) : decode op = decodeGroupE op (fields op) := by simp [decode, h]

theorem decode_of_groupF (h : (fields op).d1 = 0xF) : decode op = decodeGroupF op (fields op) := by simp [decode, h]

/-- The ten groups that hold one pattern whose only fixed digit is d1: no opcode of theirs is invalid. -/
theorem decode_ne_invalid_of_group
    (h : (fields op).d1 ∈ [0x1#4, 0x2#4, 0x3#4, 0x4#4, 0x6#4, 0x7#4, 0xA#4, 0xB#4, 0xC#4, 0xD#4]) :
    decode op ≠ .invalid op := by
  simp only [List.mem_cons, List.not_mem_nil, or_false] at h
  rcases h with h | h | h | h | h | h | h | h | h | h <;> simp [decode, h]

/-! ### When a group answers INVALID -/

/-- A choice whose first branch is an instruction is INVALID exactly when its test fails and its second branch is. -/
theorem ite_eq_invalid_iff {c : Prop} [Decidable c] {i j : Instr} (hi : i ≠ .invalid op) :
    (if c then i else j) = .invalid op ↔ ¬ c ∧ j = .invalid op := by
  by_cases hc : c <;> simp [hc, hi]

/-- In group 0 all 16 bits are fixed, and d1 is 0, so nnn says which opcode it is (R56). -/
theorem decodeGroup0_eq_invalid_iff (h : (fields op).d1 = 0x0) :
    decodeGroup0 op = .invalid op ↔ (fields op).nnn ∉ [0x0E0#12, 0x0EE#12] := by
  have hop : ∀ nnn : Addr, op = encodeNNN 0x0 nnn ↔ (fields op).nnn = nnn := fun nnn =>
    ⟨fun e => by rw [e, fields_encodeNNN_nnn], fun e => by rw [← e, encodeNNN_fields h]⟩
  have hcls : op = 0x00E0#16 ↔ (fields op).nnn = 0x0E0#12 := hop 0x0E0
  have hret : op = 0x00EE#16 ↔ (fields op).nnn = 0x0EE#12 := hop 0x0EE
  simp [decodeGroup0, ite_eq_invalid_iff, hcls, hret]

/-- Group 8 holds nine of the sixteen last digits. -/
theorem decodeGroup8_eq_invalid_iff : decodeGroup8 op (fields op) = .invalid op ↔
    (fields op).n ∈ [0x8#4, 0x9#4, 0xA#4, 0xB#4, 0xC#4, 0xD#4, 0xF#4] := by
  have hdigits : ∀ n : Nibble, (¬ n = 0x0 ∧ ¬ n = 0x1 ∧ ¬ n = 0x2 ∧ ¬ n = 0x3 ∧ ¬ n = 0x4 ∧ ¬ n = 0x5 ∧ ¬ n = 0x6 ∧
      ¬ n = 0x7 ∧ ¬ n = 0xE) ↔ n ∈ [0x8#4, 0x9#4, 0xA#4, 0xB#4, 0xC#4, 0xD#4, 0xF#4] := by decide
  rw [← hdigits]
  simp [decodeGroup8, ite_eq_invalid_iff]

theorem decodeGroupE_eq_invalid_iff :
    decodeGroupE op (fields op) = .invalid op ↔ (fields op).nn ∉ [0x9E#8, 0xA1#8] := by
  simp [decodeGroupE, ite_eq_invalid_iff]

theorem decodeGroupF_eq_invalid_iff : decodeGroupF op (fields op) = .invalid op ↔
    (fields op).nn ∉ [0x07#8, 0x0A#8, 0x15#8, 0x18#8, 0x1E#8, 0x29#8, 0x33#8, 0x55#8, 0x65#8] := by
  simp [decodeGroupF, ite_eq_invalid_iff]

end

/-- The sixteen groups: six that can answer INVALID, and ten that cannot (R57). -/
theorem group_cases : ∀ d : Nibble, d = 0x0 ∨ d = 0x5 ∨ d = 0x8 ∨ d = 0x9 ∨ d = 0xE ∨ d = 0xF ∨
    d ∈ [0x1#4, 0x2#4, 0x3#4, 0x4#4, 0x6#4, 0x7#4, 0xA#4, 0xB#4, 0xC#4, 0xD#4] := by decide

/-- Settles O6: in each group, d1 leaves one line of the table, and the group's own lemma is that line. -/
theorem invalidSpaceByGroup : Obligations.InvalidSpaceByGroup := fun op => by
  obtain h | h | h | h | h | h | h := group_cases (fields op).d1
  · rw [decode_of_group0 h, decodeGroup0_eq_invalid_iff h]
    simp [h]
  · rw [decode_of_group5 h, ite_eq_invalid_iff (by simp)]
    simp [h]
  · rw [decode_of_group8 h, decodeGroup8_eq_invalid_iff]
    simp [h]
  · rw [decode_of_group9 h, ite_eq_invalid_iff (by simp)]
    simp [h]
  · rw [decode_of_groupE h, decodeGroupE_eq_invalid_iff]
    simp [h]
  · rw [decode_of_groupF h, decodeGroupF_eq_invalid_iff]
    simp [h]
  · refine iff_of_false (decode_ne_invalid_of_group h) ?_
    simp only [List.mem_cons, List.not_mem_nil, or_false] at h
    rcases h with h | h | h | h | h | h | h | h | h | h <;> simp [h]

end Sys2Proof
end

section
/-! PROOFS. The errors of R104 (60_exceptions.md R104 to R109): an instruction whose condition in `errorOf` holds halts with its
record and changes nothing else, and what each of the six instructions that can halt executes as when it does not. -/

namespace Sys2Proof.Machine

/-- The record of an instruction's halt (R65, R105). -/
def errorRecord (s : State) (i : Instr) (cause : Cause) (addr : Option Nat) : HaltRecord :=
  { cause := cause, instrAt := s.pc - 2, opcode := some (encode i), addr := addr }

/-- The error of the check in front of an access of `n` bytes at `I` (R38, R39). -/
def rangeError (s : State) (n : Nat) : Option (Cause × Option Nat) :=
  if n = 0 ∨ s.I.toNat + n ≤ 4096 then none else some (.outOfBoundsMemoryAccess, some (max s.I.toNat 4096))

section
variable {s rest : State} {i : Instr} {n : Nat} {cause : Cause} {addr : Option Nat}

theorem withRange_of_no_rangeError (h : rangeError s n = none) : s.withRange i n rest = rest :=
  State.withRange_pass (by
    by_contra hrange
    rw [rangeError, if_neg hrange] at h
    cases h)

theorem withRange_of_rangeError (h : rangeError s n = some (cause, addr)) :
    s.withRange i n rest = s.haltedWith (errorRecord s i cause addr) := by
  unfold rangeError at h
  split_ifs at h with hrange
  cases h
  exact State.withRange_fail hrange

end

section
variable (x y n : Nibble) (s : State)

theorem errorOf_drw : errorOf s (.drw x y n) = rangeError s n.toNat := by
  have hiff : (0 < n.toNat ∧ 4096 ≤ s.I.toNat + n.toNat - 1) ↔ ¬ (n.toNat = 0 ∨ s.I.toNat + n.toNat ≤ 4096) := by omega
  simp only [errorOf, rangeError, hiff, ite_not]

theorem errorOf_ldB : errorOf s (.ldB x) = rangeError s 3 := by
  have hiff : 4096 ≤ s.I.toNat + 2 ↔ ¬ (3 = 0 ∨ s.I.toNat + 3 ≤ 4096) := by omega
  simp only [errorOf, rangeError, hiff, ite_not]

/-- The check of Fx55 and Fx65 is of `x + 1` bytes. -/
theorem transferError_eq : (if 4096 ≤ s.I.toNat + x.toNat then
    some (Cause.outOfBoundsMemoryAccess, some (max s.I.toNat 4096)) else none) = rangeError s (transferCount x) := by
  have hiff : 4096 ≤ s.I.toNat + x.toNat ↔ ¬ (transferCount x = 0 ∨ s.I.toNat + transferCount x ≤ 4096) := by
    unfold transferCount
    omega
  simp only [rangeError, hiff, ite_not]

theorem errorOf_ldStore : errorOf s (.ldStore x) = rangeError s (transferCount x) := transferError_eq x s

theorem errorOf_ldLoad : errorOf s (.ldLoad x) = rangeError s (transferCount x) := transferError_eq x s

end

/-! ### What the instructions that can halt execute as when they do not -/

section
variable {x y n : Nibble} {nnn : Addr} {s : State}

/-- R69, R104: a return that does not underflow has an entry to pop. -/
theorem sp_pos_of_no_error (h : errorOf s .ret = none) : 0 < s.sp.val :=
  Nat.pos_of_ne_zero fun hsp => by simp [errorOf, hsp] at h

/-- R71, R104: a call that does not overflow has room for an entry. -/
theorem sp_lt_of_no_error (h : errorOf s (.call nnn) = none) : s.sp.val < 16 :=
  Nat.lt_of_le_of_ne (Nat.le_of_lt_succ s.sp.isLt) fun hsp => by simp [errorOf, hsp] at h

/-- R69, with an entry to pop. -/
theorem exec_ret (h : errorOf s .ret = none) :
    exec .ret s = .next (s.dropTop.setPc (s.top (sp_pos_of_no_error h))) :=
  congrArg _ (dif_pos (sp_pos_of_no_error h))

/-- R71, with room for an entry. -/
theorem exec_call (h : errorOf s (.call nnn) = none) :
    exec (.call nnn) s = .next ((s.push s.pc (sp_lt_of_no_error h)).setPc (addrWord nnn)) :=
  congrArg _ (dif_pos (sp_lt_of_no_error h))

/-- R97, with the sprite inside memory. -/
theorem exec_drw (h : errorOf s (.drw x y n) = none) : exec (.drw x y n) s =
    .next (drawSprite (spriteColumn (s.readV x)) (spriteRow (s.readV y)) (s.spriteAt n) s) :=
  congrArg _ (withRange_of_no_rangeError (errorOf_drw x y n s ▸ h))

/-- R93, with the three bytes inside memory. -/
theorem exec_ldB (h : errorOf s (.ldB x) = none) :
    exec (.ldB x) s = .next (s.setM (s.M.writeList s.I.toNat (decimalDigits (s.readV x)))) :=
  congrArg _ (withRange_of_no_rangeError (errorOf_ldB x s ▸ h))

/-- R94, with the bytes inside memory. -/
theorem exec_ldStore (h : errorOf s (.ldStore x) = none) :
    exec (.ldStore x) s = .next (s.setM (s.M.writeList s.I.toNat (s.firstRegs (transferCount x)))) :=
  congrArg _ (withRange_of_no_rangeError (errorOf_ldStore x s ▸ h))

/-- R95, with the bytes inside memory. -/
theorem exec_ldLoad (h : errorOf s (.ldLoad x) = none) : exec (.ldLoad x) s = .next (s.loadRegs (transferCount x)) :=
  congrArg _ (withRange_of_no_rangeError (errorOf_ldLoad x s ▸ h))

end

/-- R104, R105, R107: an instruction whose error condition holds halts with its record, and nothing else changes. -/
theorem exec_of_error {i : Instr} {s : State} {cause : Cause} {addr : Option Nat} (h : errorOf s i = some (cause, addr)) :
    exec i s = .next (s.haltedWith (errorRecord s i cause addr)) := by
  cases i with
  | ret =>
    simp only [errorOf] at h
    split_ifs at h with hsp
    cases h
    exact congrArg _ (dif_neg (by omega))
  | call nnn =>
    simp only [errorOf] at h
    split_ifs at h with hsp
    cases h
    exact congrArg _ (dif_neg (by simp [hsp, Config.stackDepth]))
  | drw x y n => exact congrArg _ (withRange_of_rangeError (errorOf_drw x y n s ▸ h))
  | ldB x => exact congrArg _ (withRange_of_rangeError (errorOf_ldB x s ▸ h))
  | ldStore x => exact congrArg _ (withRange_of_rangeError (errorOf_ldStore x s ▸ h))
  | ldLoad x => exact congrArg _ (withRange_of_rangeError (errorOf_ldLoad x s ▸ h))
  | _ => cases h

end Sys2Proof.Machine
end

section
/-! PROOFS. What each instruction may change (files 41 to 44): the frames of the updates that instructions are made of, the
table `changesOf`, and the inversion lemma of `exec`: an instruction keeps within its row of the table, or it halts. -/

namespace Sys2Proof.Machine

/-! ### Frames -/

theorem Frame.refl (c : Changes) (s : State) : Frame c s s := by
  constructor <;> simp

/-- Two updates that keep within the same changes keep within them together. -/
theorem Frame.trans {c : Changes} {s t u : State} (h : Frame c s t) (h' : Frame c t u) : Frame c s u where
  regs r hr := (h'.regs r hr).trans (h.regs r hr)
  I hc := (h'.I hc).trans (h.I hc)
  pc hc := (h'.pc hc).trans (h.pc hc)
  callStack hc := ⟨(h'.callStack hc).1.trans (h.callStack hc).1, (h'.callStack hc).2.trans (h.callStack hc).2⟩
  DT hc := (h'.DT hc).trans (h.DT hc)
  ST hc := (h'.ST hc).trans (h.ST hc)
  mode hc := (h'.mode hc).trans (h.mode hc)
  FB hc := (h'.FB hc).trans (h.FB hc)
  trace hc := (h'.trace hc).trans (h.trace hc)
  randDraws hc := (h'.randDraws hc).trans (h.randDraws hc)
  keyReads hc := (h'.keyReads hc).trans (h.keyReads hc)
  memory a ha := (h'.memory a ha).trans (h.memory a ha)
  session := ⟨h'.session.1.trans h.session.1, h'.session.2.trans h.session.2⟩

namespace State
variable (s : State)

/-- A result and its flag change the destination and VF (R15, R89). -/
theorem writeResult_frame (x : Nibble) (v : Byte) (b : Bool) : Frame { regs := [x, 0xF] } s (s.writeResult x v b) :=
  (s.writeV_frame v (by simp)).trans ((s.writeV x v).writeV_frame _ (by simp))

/-- A draw of RAND and the write of the byte (R88). -/
theorem randomMasked_frame (r nn : Byte) (x : Nibble) :
    Frame { regs := [x], randDraws := true } s (randomMasked r x nn s) := by
  have hcount : Frame { regs := [x], randDraws := true } s s.countDraw := by constructor <;> simp
  exact hcount.trans (s.countDraw.writeV_frame _ (by simp))

@[simp] theorem recordKeyQuery_V (k : Nibble) (p : Bool) : (s.recordKeyQuery k p).V = s.V := rfl
@[simp] theorem recordKeyQuery_I (k : Nibble) (p : Bool) : (s.recordKeyQuery k p).I = s.I := rfl
@[simp] theorem recordKeyQuery_pc (k : Nibble) (p : Bool) : (s.recordKeyQuery k p).pc = s.pc := rfl
@[simp] theorem recordKeyQuery_stack (k : Nibble) (p : Bool) : (s.recordKeyQuery k p).stack = s.stack := rfl
@[simp] theorem recordKeyQuery_sp (k : Nibble) (p : Bool) : (s.recordKeyQuery k p).sp = s.sp := rfl
@[simp] theorem recordKeyQuery_DT (k : Nibble) (p : Bool) : (s.recordKeyQuery k p).DT = s.DT := rfl
@[simp] theorem recordKeyQuery_ST (k : Nibble) (p : Bool) : (s.recordKeyQuery k p).ST = s.ST := rfl
@[simp] theorem recordKeyQuery_mode (k : Nibble) (p : Bool) : (s.recordKeyQuery k p).mode = s.mode := rfl
@[simp] theorem recordKeyQuery_M (k : Nibble) (p : Bool) : (s.recordKeyQuery k p).M = s.M := rfl
@[simp] theorem recordKeyQuery_FB (k : Nibble) (p : Bool) : (s.recordKeyQuery k p).FB = s.FB := rfl
@[simp] theorem recordKeyQuery_trace (k : Nibble) (p : Bool) :
    (s.recordKeyQuery k p).trace = s.trace ++ [.keyQuery k p] := rfl
@[simp] theorem recordKeyQuery_session (k : Nibble) (p : Bool) : (s.recordKeyQuery k p).session = s.session := rfl
@[simp] theorem recordKeyQuery_hostOps (k : Nibble) (p : Bool) : (s.recordKeyQuery k p).hostOps = s.hostOps := rfl
@[simp] theorem recordKeyQuery_randDraws (k : Nibble) (p : Bool) : (s.recordKeyQuery k p).randDraws = s.randDraws := rfl
@[simp] theorem recordKeyQuery_keyReads (k : Nibble) (p : Bool) : (s.recordKeyQuery k p).keyReads = s.keyReads + 1 := rfl
@[simp] theorem recordKeyQuery_readV (k : Nibble) (p : Bool) (r : Nibble) : (s.recordKeyQuery k p).readV r = s.readV r := rfl

/-- A key query and the skip on its answer (R98, R99). -/
theorem recordKeyQuery_skipIf_frame (k : Nibble) (p b : Bool) :
    Frame { pc := true, trace := true, keyReads := true } s ((s.recordKeyQuery k p).skipIf b) := by
  constructor <;> simp

/-- A call pushes and jumps (R71). -/
theorem push_setPc_frame (v target : Word) (room : s.sp.val < Config.stackDepth) :
    Frame { pc := true, callStack := true } s ((s.push v room).setPc target) := by
  constructor <;> simp

/-- A return pops and jumps (R69). -/
theorem dropTop_setPc_frame (target : Word) : Frame { pc := true, callStack := true } s (s.dropTop.setPc target) := by
  constructor <;> simp

/-- The sum and the flag of Fx1E (R91). -/
theorem setI_writeFlag_frame (v : Word) (b : Bool) : Frame { I := true, regs := [0xF] } s ((s.setI v).writeFlag b) := by
  have hI : Frame { I := true, regs := [0xF] } s (s.setI v) := by constructor <;> simp
  exact hI.trans ((s.setI v).writeV_frame _ (by simp))

/-- The blit, its event and the collision flag (R97). -/
theorem drawSprite_frame (x y : Byte) (sprite : List Byte) :
    Frame { regs := [0xF], FB := true, trace := true } s (drawSprite x y sprite s) := by
  have hdraw : ∀ fb e, Frame { regs := [0xF], FB := true, trace := true } s ((s.setFB fb).emit e) := fun fb e => by
    constructor <;> simp
  exact (hdraw _ _).trans (State.writeV_frame _ _ (by simp))

/-- Storing a list of bytes changes the bytes of its range only (R47). -/
theorem setM_writeList_frame (a : Nat) {bs : List Byte} {n : Nat} (hn : bs.length = n) :
    Frame { stored := (a, n) } s (s.setM (s.M.writeList a bs)) := by
  subst hn
  constructor
  case memory => exact fun b hb => Memory.read_writeList_outside s.M a bs hb
  all_goals simp

/-- Loading the first `n` registers changes those registers only (R95). -/
theorem loadRegs_frame (n : Nat) : Frame { regs := (List.range n).map (BitVec.ofNat 4) } s (s.loadRegs n) := by
  induction n with
  | zero => exact Frame.refl _ s
  | succ n ih =>
    have hprev : Frame { regs := (List.range (n + 1)).map (BitVec.ofNat 4) } s (s.loadRegs n) :=
      { ih with regs := fun r hr => ih.regs r fun hmem => hr (by rw [List.range_succ, List.map_append]; simp [hmem]) }
    refine hprev.trans ((s.loadRegs n).writeV_frame _ ?_)
    rw [List.range_succ, List.map_append]
    simp

end State

/-! ### The instructions that cannot halt -/

section
variable (x y : Nibble) (nn : Byte) (nnn : Addr) (s : State)

/-- R72. -/
@[simp] theorem exec_jpV0 : exec (.jpV0 nnn) s = .next (s.setPc (offsetTarget nnn (s.readV 0))) := rfl

/-- R83. -/
@[simp] theorem exec_addReg : exec (.addReg x y) s =
    .next (s.writeResult x (s.readV x + s.readV y) (carryOut (s.readV x) (s.readV y))) := rfl

/-- R84. -/
@[simp] theorem exec_sub : exec (.sub x y) s =
    .next (s.writeResult x (s.readV x - s.readV y) (noBorrow (s.readV x) (s.readV y))) := rfl

/-- R85. -/
@[simp] theorem exec_subn : exec (.subn x y) s =
    .next (s.writeResult x (s.readV y - s.readV x) (noBorrow (s.readV y) (s.readV x))) := rfl

/-- R86. -/
@[simp] theorem exec_shr : exec (.shr x y) s = .next (s.writeResult x (s.readV y >>> 1) (lowBit (s.readV y))) := rfl

/-- R87. -/
@[simp] theorem exec_shl : exec (.shl x y) s = .next (s.writeResult x (s.readV y <<< 1) (highBit (s.readV y))) := rfl

/-- R88. -/
@[simp] theorem exec_rnd : exec (.rnd x nn) s = .next (randomMasked (Config.randomByte s.randDraws) x nn s) := rfl

/-- The answer to a query about the key Vx names (R98, R99). -/
abbrev State.keyAnswer : Bool := Config.keyPressed s.keyReads (keyNumber (s.readV x))

/-- R98. -/
@[simp] theorem exec_skp : exec (.skp x) s =
    .next ((s.recordKeyQuery (keyNumber (s.readV x)) (s.keyAnswer x)).skipIf (s.keyAnswer x)) := rfl

/-- R99. -/
@[simp] theorem exec_sknp : exec (.sknp x) s =
    .next ((s.recordKeyQuery (keyNumber (s.readV x)) (s.keyAnswer x)).skipIf (!s.keyAnswer x)) := rfl

/-- R91. -/
@[simp] theorem exec_addI : exec (.addI x) s =
    .next ((s.setI (indexSum s.I (s.readV x))).writeFlag (indexOverflow s.I (s.readV x))) := rfl

end

/-! ### The table -/

/-- What an instruction executing from `s` may change when it does not halt (files 41 to 44). -/
def changesOf (s : State) : Instr → Changes
  | .cls => { FB := true, trace := true }
  | .ret | .call _ => { pc := true, callStack := true }
  | .jp _ | .jpV0 _ | .seImm _ _ | .sneImm _ _ | .seReg _ _ | .sneReg _ _ => { pc := true }
  | .ldImm x _ | .addImm x _ | .ldReg x _ | .orReg x _ | .andReg x _ | .xorReg x _ | .ldVxDt x => { regs := [x] }
  | .addReg x _ | .sub x _ | .subn x _ | .shr x _ | .shl x _ => { regs := [x, 0xF] }
  | .rnd x _ => { regs := [x], randDraws := true }
  | .ldI _ | .ldF _ => { I := true }
  | .addI _ => { I := true, regs := [0xF] }
  | .drw _ _ _ => { regs := [0xF], FB := true, trace := true }
  | .skp _ | .sknp _ => { pc := true, trace := true, keyReads := true }
  | .ldDtVx _ => { DT := true }
  | .ldStVx _ => { ST := true, trace := true }
  | .ldVxK _ => { mode := true }
  | .ldB _ => { stored := (s.I.toNat, 3) }
  | .ldStore x => { stored := (s.I.toNat, x.toNat + 1) }
  | .ldLoad x => { regs := (List.range (x.toNat + 1)).map (BitVec.ofNat 4) }
  | .invalid _ => {}

/-- An instruction without an error keeps within its row of the table. -/
theorem exec_of_no_error {i : Instr} {s : State} (h : errorOf s i = none) :
    ∃ t, exec i s = .next t ∧ Frame (changesOf s i) s t := by
  cases i with
  | cls => exact ⟨_, exec_cls s, s.setFB_emit_frame _ _⟩
  | ret => exact ⟨_, exec_ret h, s.dropTop_setPc_frame _⟩
  | jp nnn => exact ⟨_, exec_jp nnn s, s.setPc_frame _⟩
  | call nnn => exact ⟨_, exec_call h, s.push_setPc_frame _ _ _⟩
  | seImm x nn => exact ⟨_, exec_seImm x nn s, s.skipIf_frame _⟩
  | sneImm x nn => exact ⟨_, exec_sneImm x nn s, s.skipIf_frame _⟩
  | seReg x y => exact ⟨_, exec_seReg x y s, s.skipIf_frame _⟩
  | sneReg x y => exact ⟨_, exec_sneReg x y s, s.skipIf_frame _⟩
  | ldImm x nn => exact ⟨_, exec_ldImm x nn s, s.writeV_frame _ (List.mem_singleton_self x)⟩
  | addImm x nn => exact ⟨_, exec_addImm x nn s, s.writeV_frame _ (List.mem_singleton_self x)⟩
  | ldReg x y => exact ⟨_, exec_ldReg x y s, s.writeV_frame _ (List.mem_singleton_self x)⟩
  | orReg x y => exact ⟨_, exec_orReg x y s, s.writeV_frame _ (List.mem_singleton_self x)⟩
  | andReg x y => exact ⟨_, exec_andReg x y s, s.writeV_frame _ (List.mem_singleton_self x)⟩
  | xorReg x y => exact ⟨_, exec_xorReg x y s, s.writeV_frame _ (List.mem_singleton_self x)⟩
  | addReg x y => exact ⟨_, exec_addReg x y s, s.writeResult_frame _ _ _⟩
  | sub x y => exact ⟨_, exec_sub x y s, s.writeResult_frame _ _ _⟩
  | shr x y => exact ⟨_, exec_shr x y s, s.writeResult_frame _ _ _⟩
  | subn x y => exact ⟨_, exec_subn x y s, s.writeResult_frame _ _ _⟩
  | shl x y => exact ⟨_, exec_shl x y s, s.writeResult_frame _ _ _⟩
  | ldI nnn => exact ⟨_, exec_ldI nnn s, s.setI_frame _⟩
  | jpV0 nnn => exact ⟨_, exec_jpV0 nnn s, s.setPc_frame _⟩
  | rnd x nn => exact ⟨_, exec_rnd x nn s, s.randomMasked_frame _ _ _⟩
  | drw x y n => exact ⟨_, exec_drw h, s.drawSprite_frame _ _ _⟩
  | skp x => exact ⟨_, exec_skp x s, s.recordKeyQuery_skipIf_frame _ _ _⟩
  | sknp x => exact ⟨_, exec_sknp x s, s.recordKeyQuery_skipIf_frame _ _ _⟩
  | ldVxDt x => exact ⟨_, exec_ldVxDt x s, s.writeV_frame _ (List.mem_singleton_self x)⟩
  | ldVxK x => exact ⟨_, exec_ldVxK x s, s.setMode_frame _⟩
  | ldDtVx x => exact ⟨_, exec_ldDtVx x s, s.setDT_frame _⟩
  | ldStVx x => exact ⟨_, exec_ldStVx x s, s.writeST_frame _⟩
  | addI x => exact ⟨_, exec_addI x s, s.setI_writeFlag_frame _ _⟩
  | ldF x => exact ⟨_, exec_ldF x s, s.setI_frame _⟩
  | ldB x => exact ⟨_, exec_ldB h, s.setM_writeList_frame _ (decimalDigits_length _)⟩
  | ldStore x => exact ⟨_, exec_ldStore h, s.setM_writeList_frame _ (s.firstRegs_length _)⟩
  | ldLoad x => exact ⟨_, exec_ldLoad h, s.loadRegs_frame _⟩
  | invalid op => exact ⟨_, exec_invalid op s, Frame.refl _ s⟩

theorem exec_frame {i : Instr} {s t : State} (herr : errorOf s i = none) (h : exec i s = .next t) :
    Frame (changesOf s i) s t := by
  obtain ⟨t', ht', hframe⟩ := exec_of_no_error herr
  cases ht'.symm.trans h
  exact hframe

/-- What an instruction can do (R65, R105, R107): keep within its row of the table, or halt with its record. -/
theorem exec_cases {i : Instr} {s t : State} (h : exec i s = .next t) :
    (errorOf s i = none ∧ Frame (changesOf s i) s t) ∨
    ∃ cause addr, errorOf s i = some (cause, addr) ∧ t = s.haltedWith (errorRecord s i cause addr) := by
  cases herr : errorOf s i with
  | none => exact .inl ⟨rfl, exec_frame herr h⟩
  | some e =>
    cases (exec_of_error (cause := e.1) (addr := e.2) herr).symm.trans h
    exact .inr ⟨e.1, e.2, rfl, rfl⟩

end Sys2Proof.Machine
end

section
/-! PROOFS. What an instruction makes of memory, of the mode and of the trace, with the events that are neither the sound's nor
a halt's told apart (10_state.md R31, 60_exceptions.md R104, R120). -/

namespace Sys2Proof.Machine

/-! ### Events -/

/-- An event of the Display or the Keyboard: it is no start or stop of the sound and no halt. -/
def Event.isRequest : Event → Prop
  | .clear | .draw _ _ _ _ | .keyQuery _ _ => True
  | .soundStart | .soundStop | .halt _ => False

section
variable (trace : List Event) {e : Event}

theorem haltsOf_append (es : List Event) : haltsOf (trace ++ es) = haltsOf trace ++ haltsOf es :=
  List.filterMap_append

theorem soundOf_append (e : Event) : soundOf (trace ++ [e]) = soundEvent (soundOf trace) e := by
  simp [soundOf]

theorem haltsOf_request (he : e.isRequest) : haltsOf [e] = [] := by
  cases e with
  | clear => rfl
  | draw => rfl
  | keyQuery => rfl
  | soundStart => exact he.elim
  | soundStop => exact he.elim
  | halt => exact he.elim

theorem soundEvent_request (on : Option Bool) (he : e.isRequest) : soundEvent on e = on := by
  cases e with
  | clear => rfl
  | draw => rfl
  | keyQuery => rfl
  | soundStart => exact he.elim
  | soundStop => exact he.elim
  | halt => exact he.elim

end

/-- A write to ST reports no halt. -/
theorem haltsOf_writeST (s : State) (v : Byte) : haltsOf (s.writeST v).trace = haltsOf s.trace := by
  have hone : ∀ e, haltsOf [e] = [] → haltsOf (s.trace ++ [e]) = haltsOf s.trace := fun e he => by
    rw [haltsOf_append, he, List.append_nil]
  obtain ⟨_, _, hs⟩ | ⟨_, _, hs⟩ | ⟨_, hs⟩ := s.writeST_cases v
  · exact hs ▸ hone .soundStart rfl
  · exact hs ▸ hone .soundStop rfl
  · rw [hs, State.setST_trace]

/-! ### Memory -/

namespace State
variable (s : State)

@[simp] theorem writeFlag_M (b : Bool) : (s.writeFlag b).M = s.M := rfl
@[simp] theorem writeResult_M (x : Nibble) (v : Byte) (b : Bool) : (s.writeResult x v b).M = s.M := rfl
@[simp] theorem randomMasked_M (r nn : Byte) (x : Nibble) : (randomMasked r x nn s).M = s.M := rfl
@[simp] theorem drawSprite_M (x y : Byte) (sprite : List Byte) : (drawSprite x y sprite s).M = s.M := rfl
@[simp] theorem loadRegs_M (n : Nat) : (s.loadRegs n).M = s.M := by rw [loadRegs_eq]

end State

/-- An instruction leaves memory as it is, or writes a list of bytes to it (R93, R94). -/
theorem exec_M {i : Instr} {s t : State} (h : exec i s = .next t) : t.M = s.M ∨ ∃ a bs, t.M = s.M.writeList a bs := by
  obtain ⟨herr, -⟩ | ⟨cause, addr, -, rfl⟩ := exec_cases h
  · cases i with
    | ldB x =>
      cases (exec_ldB herr).symm.trans h
      exact .inr ⟨_, _, rfl⟩
    | ldStore x =>
      cases (exec_ldStore herr).symm.trans h
      exact .inr ⟨_, _, rfl⟩
    | ret =>
      cases (exec_ret herr).symm.trans h
      exact .inl (by simp)
    | call nnn =>
      cases (exec_call herr).symm.trans h
      exact .inl (by simp)
    | drw x y n =>
      cases (exec_drw herr).symm.trans h
      exact .inl (by simp)
    | ldLoad x =>
      cases (exec_ldLoad herr).symm.trans h
      exact .inl (by simp)
    | _ =>
      cases h
      exact .inl (by simp)
  · exact .inl rfl

/-! ### The mode and the trace -/

/-- Without an error, an instruction changes the mode only to await a key (R103). -/
theorem exec_mode {i : Instr} {s t : State} (herr : errorOf s i = none) (h : exec i s = .next t) :
    t.mode = s.mode ∨ ∃ x, i = .ldVxK x ∧ t.mode = .awaitingKey x := by
  cases i with
  | ldVxK x =>
    cases h
    exact .inr ⟨x, rfl, rfl⟩
  | _ => exact .inl ((exec_frame herr h).mode rfl)

/-- Without an error, an instruction makes no request and leaves ST, makes one request and leaves ST, or writes ST. -/
theorem exec_trace {i : Instr} {s t : State} (herr : errorOf s i = none) (h : exec i s = .next t) :
    (t.trace = s.trace ∧ t.ST = s.ST) ∨ (∃ e : Event, e.isRequest ∧ t.trace = s.trace ++ [e] ∧ t.ST = s.ST) ∨
      ∃ v, t = s.writeST v := by
  have hframe := exec_frame herr h
  cases i with
  | cls =>
    cases h
    exact .inr (.inl ⟨.clear, trivial, rfl, rfl⟩)
  | drw x y n =>
    cases (exec_drw herr).symm.trans h
    exact .inr (.inl ⟨.draw _ _ _ _, trivial, rfl, rfl⟩)
  | skp x =>
    cases h
    exact .inr (.inl ⟨.keyQuery _ _, trivial, State.skipIf_trace _ _, State.skipIf_ST _ _⟩)
  | sknp x =>
    cases h
    exact .inr (.inl ⟨.keyQuery _ _, trivial, State.skipIf_trace _ _, State.skipIf_ST _ _⟩)
  | ldStVx x =>
    cases h
    exact .inr (.inr ⟨_, rfl⟩)
  | _ => exact .inl ⟨hframe.trace rfl, hframe.ST rfl⟩

/-- Without an error, an instruction reports no halt (R104). -/
theorem exec_haltsOf {i : Instr} {s t : State} (herr : errorOf s i = none) (h : exec i s = .next t) :
    haltsOf t.trace = haltsOf s.trace := by
  obtain ⟨htrace, -⟩ | ⟨e, he, htrace, -⟩ | ⟨v, rfl⟩ := exec_trace herr h
  · rw [htrace]
  · rw [htrace, haltsOf_append, haltsOf_request he, List.append_nil]
  · exact haltsOf_writeST s v

/-- Settles O17: an error is `exec_of_error`; without one, the lemmas above say what becomes of the trace and the mode. -/
theorem errorsAreExactAndPrecise : Obligations.ErrorsAreExactAndPrecise := fun i s =>
  ⟨fun _ _ => exec_of_error, fun herr => by
    obtain ⟨t, ht⟩ := exec_next i s
    exact ⟨t, ht, exec_haltsOf herr ht, (exec_mode herr ht).imp_right fun ⟨x, _, hx⟩ => ⟨x, hx⟩⟩⟩

end Sys2Proof.Machine
end

section
/-! PROOFS. The inversion lemma of `step` (00_scope.md R5, 40_cycle.md R61 to R65): every way a step can answer a next state,
with the operation and the mode it belongs to. -/

namespace Sys2Proof.Machine

/-- A step from `s`, by the operation applied and the mode it meets. -/
inductive StepCase (s : State) : State → Prop
  | reset (hop : nextOp s = .reset) : StepCase s (resetSession s.afterTaking)
  | load (bytes : List Byte) (hop : nextOp s = .loadProgram bytes) (hbuilt : s.session = .built)
      (hlen : bytes.length ≤ 3584) :
      StepCase s ((s.afterTaking.setM (s.M.writeList 0x200 bytes)).setSession .loaded)
  | tick (hop : nextOp s = .tick) : StepCase s (tick s.afterTaking)
  | release (x k : Nibble) (hop : nextOp s = .keyRelease k) (hm : s.mode = .awaitingKey x) :
      StepCase s (s.afterTaking.setMode (.keyResolved x k))
  | releaseIgnored (k : Nibble) (hop : nextOp s = .keyRelease k) (hm : ∀ x, s.mode ≠ .awaitingKey x) :
      StepCase s s.afterTaking
  | cycleAwaiting (x : Nibble) (hop : nextOp s = .cycle) (hm : s.mode = .awaitingKey x) : StepCase s s.afterTaking
  | cycleHalted (rec : HaltRecord) (hop : nextOp s = .cycle) (hm : s.mode = .halted rec) : StepCase s s.afterTaking
  | cycleResolves (x k : Nibble) (hop : nextOp s = .cycle) (hm : s.mode = .keyResolved x k) :
      StepCase s ((s.afterTaking.writeV x (k.setWidth 8)).setMode .running)
  | fetchFails (hop : nextOp s = .cycle) (hm : s.mode = .running) (hf : s.fetchWord = none) :
      StepCase s (s.afterTaking.setSession .started).raiseFetch
  | execute (op : Word) (t : State) (hop : nextOp s = .cycle) (hm : s.mode = .running) (hf : s.fetchWord = some op)
      (hexec : exec (decode op) s.afterTaking.fetched = .next t) : StepCase s t

section
variable {s : State}

/-- R116: a release while a key is awaited is recorded. -/
theorem keyRelease_awaitingKey {x : Nibble} (hm : s.mode = .awaitingKey x) (k : Nibble) :
    keyRelease k s = s.setMode (.keyResolved x k) := by
  unfold keyRelease
  rw [hm]

/-- R116, D15: every other release is ignored. -/
theorem keyRelease_ignored (hm : ∀ x, s.mode ≠ .awaitingKey x) (k : Nibble) : keyRelease k s = s := by
  unfold keyRelease
  cases hmode : s.mode with
  | awaitingKey x => exact absurd hmode (hm x)
  | running => rfl
  | keyResolved x k' => rfl
  | halted rec => rfl

/-- R64: an opcode is fetched only where both bytes are inside memory. -/
theorem pc_lt_of_fetchWord {op : Word} (hf : s.fetchWord = some op) : s.pc.toNat + 1 < 4096 := by
  by_contra hpc
  rw [State.fetchWord_eq_none (by omega)] at hf
  cases hf

/-- R43: a load that has a next state was admitted. -/
theorem loadProgram_cases {bytes : List Byte} {t : State} (h : loadProgram bytes s = .next t) :
    s.session = .built ∧ bytes.length ≤ 3584 ∧ t = (s.setM (s.M.writeList 0x200 bytes)).setSession .loaded := by
  by_cases hbuilt : s.session = .built
  · by_cases hlen : bytes.length ≤ 3584
    · rw [loadProgram_admitted hbuilt hlen] at h
      cases h
      exact ⟨hbuilt, hlen, rfl⟩
    · rw [loadProgram_tooLong hbuilt (by omega)] at h
      cases h
  · rw [loadProgram_notAdmitted hbuilt] at h
    cases h

/-- Every step that has a next state is one of the cases. -/
theorem step_cases {t : State} (h : step s = .next t) : StepCase s t := by
  cases hop : nextOp s with
  | reset =>
    cases (step_of_reset hop).symm.trans h
    exact .reset hop
  | loadProgram bytes =>
    obtain ⟨hbuilt, hlen, rfl⟩ := loadProgram_cases ((step_of_loadProgram hop).symm.trans h)
    exact .load bytes hop hbuilt hlen
  | tick =>
    cases (step_of_tick hop).symm.trans h
    exact .tick hop
  | keyRelease k =>
    have ht : keyRelease k s.afterTaking = t := by
      cases (step_of_keyRelease hop).symm.trans h
      rfl
    by_cases hm : ∃ x, s.mode = .awaitingKey x
    · obtain ⟨x, hm⟩ := hm
      rw [← ht, keyRelease_awaitingKey (s := s.afterTaking) hm]
      exact .release x k hop hm
    · rw [← ht, keyRelease_ignored (s := s.afterTaking) (not_exists.mp hm)]
      exact .releaseIgnored k hop (not_exists.mp hm)
  | cycle =>
    rw [step_of_cycle hop] at h
    cases hm : s.mode with
    | awaitingKey x =>
      cases (cycle_awaitingKey (s := s.afterTaking) hm).symm.trans h
      exact .cycleAwaiting x hop hm
    | halted rec =>
      cases (cycle_halted (s := s.afterTaking) hm).symm.trans h
      exact .cycleHalted rec hop hm
    | keyResolved x k =>
      cases (cycle_keyResolved (s := s.afterTaking) hm).symm.trans h
      exact .cycleResolves x k hop hm
    | running =>
      cases hf : s.fetchWord with
      | none =>
        cases (cycle_fetchFails (s := s.afterTaking) hm hf).symm.trans h
        exact .fetchFails hop hm hf
      | some op => exact .execute op t hop hm hf ((cycle_running (s := s.afterTaking) hm hf).symm.trans h)

end

/-! ### `tick` -/

section
variable (s : State)

@[simp] theorem tick_pc : (tick s).pc = s.pc := (tick_frame s).pc rfl
@[simp] theorem tick_stack : (tick s).stack = s.stack := ((tick_frame s).callStack rfl).1
@[simp] theorem tick_mode : (tick s).mode = s.mode := (tick_frame s).mode rfl
@[simp] theorem tick_M : (tick s).M = s.M := by simp [tick]
@[simp] theorem tick_session : (tick s).session = s.session := (tick_frame s).session.1

end

end Sys2Proof.Machine
end

section
/-! PROOFS. The invariants of Safety.lean (10_state.md R34, 60_exceptions.md R105, R120, 20_memory.md R35, R43): each holds of the
reset state, and each case of a step keeps it. -/

namespace Sys2Proof.Machine

/-! ### Memory is canonical -/

/-- Settles O22: a step leaves memory as it is, empties it, or writes a list of bytes to it. -/
theorem memoryStaysCanonical : Obligations.MemoryStaysCanonical := fun s t hwf h => by
  cases step_cases h with
  | reset => exact Memory.nil_wf
  | load bytes => exact Memory.writeList_wf hwf 0x200 bytes
  | execute op _ _ _ _ hexec =>
    obtain hM | ⟨a, bs, hM⟩ := exec_M hexec
    · exact hM ▸ hwf
    · exact hM ▸ Memory.writeList_wf hwf a bs
  | tick => simpa using hwf
  | release => exact hwf
  | releaseIgnored => exact hwf
  | cycleAwaiting => exact hwf
  | cycleHalted => exact hwf
  | cycleResolves => exact hwf
  | fetchFails => exact hwf

/-! ### The bounds of `pc` and of the call stack's entries -/

/-- The bounds read `pc` and the entries only. -/
theorem State.withinBounds_congr {s t : State} (hpc : t.pc = s.pc) (hstack : t.stack = s.stack) (h : s.withinBounds) :
    t.withinBounds := by
  unfold State.withinBounds
  rwa [hpc, hstack]

theorem withinBounds_reset : State.reset.withinBounds := by
  refine ⟨by decide, fun e he => ?_⟩
  have he0 : e = 0 := by simpa [State.reset] using he
  subst he0
  decide

/-- R72: nnn and a byte give at most 0xFFF + 0xFF. -/
theorem offsetTarget_toNat (nnn : Addr) (v : Byte) : (offsetTarget nnn v).toNat = nnn.toNat + v.toNat := by
  unfold offsetTarget
  bv_omega

namespace State
variable {s : State}

/-- A jump to a target in bounds. -/
theorem setPc_withinBounds (hs : s.withinBounds) {target : Word} (htarget : target.toNat ≤ 0x10FE) :
    (s.setPc target).withinBounds := ⟨htarget, hs.2⟩

/-- A skip from inside memory stays below 0x1002 (R67). -/
theorem skipIf_withinBounds (hs : s.withinBounds) (hpc : s.pc.toNat ≤ 0x1000) (b : Bool) : (s.skipIf b).withinBounds := by
  rw [skipIf_eq]
  refine setPc_withinBounds hs ?_
  split_ifs <;> bv_omega

/-- A push of an entry in bounds (R19). -/
theorem push_withinBounds (hs : s.withinBounds) {v : Word} (hv : v.toNat ≤ 0x1000) (room : s.sp.val < Config.stackDepth) :
    (s.push v room).withinBounds := by
  refine ⟨hs.1, fun e he => ?_⟩
  rw [push_stack, Vector.toList_set] at he
  obtain he | rfl := List.mem_or_eq_of_mem_set he
  · exact hs.2 e he
  · exact hv

/-- The entry a pop returns is in bounds (R19). -/
theorem top_le (hs : s.withinBounds) (used : 0 < s.sp.val) : (s.top used).toNat ≤ 0x1000 :=
  hs.2 _ (by simp [top])

end State

/-- An instruction keeps the bounds: an entry pushed is the `pc` past an opcode in memory, an entry popped is in bounds, and
jumps and skips go no further than 0x10FE (R70 to R76). -/
theorem exec_withinBounds {i : Instr} {s t : State} (hpc : s.pc.toNat ≤ 0x1000) (hs : s.withinBounds)
    (h : exec i s = .next t) : t.withinBounds := by
  obtain ⟨herr, hframe⟩ | ⟨cause, addr, -, rfl⟩ := exec_cases h
  · cases i with
    | ret =>
      cases (exec_ret herr).symm.trans h
      exact State.setPc_withinBounds (s := s.dropTop) hs ((State.top_le hs _).trans (by decide))
    | call nnn =>
      cases (exec_call herr).symm.trans h
      exact State.setPc_withinBounds (State.push_withinBounds hs hpc _) (by rw [addrWord_toNat]; omega)
    | jp nnn =>
      cases h
      exact State.setPc_withinBounds hs (by rw [addrWord_toNat]; omega)
    | jpV0 nnn =>
      cases h
      exact State.setPc_withinBounds hs (by rw [offsetTarget_toNat]; omega)
    | seImm x nn =>
      cases h
      exact State.skipIf_withinBounds hs hpc _
    | sneImm x nn =>
      cases h
      exact State.skipIf_withinBounds hs hpc _
    | seReg x y =>
      cases h
      exact State.skipIf_withinBounds hs hpc _
    | sneReg x y =>
      cases h
      exact State.skipIf_withinBounds hs hpc _
    | skp x =>
      cases h
      exact State.skipIf_withinBounds (s := s.recordKeyQuery _ _) hs hpc _
    | sknp x =>
      cases h
      exact State.skipIf_withinBounds (s := s.recordKeyQuery _ _) hs hpc _
    | _ => exact State.withinBounds_congr (hframe.pc rfl) (hframe.callStack rfl).1 hs
  · exact hs

/-- Settles O23: an opcode is fetched below 0xFFF, so it executes with `pc` at most 0x1000. -/
theorem boundsAreKept : Obligations.BoundsAreKept := fun s t hs h => by
  cases step_cases h with
  | reset => exact withinBounds_reset
  | execute op _ _ _ hf hexec =>
    have hpc := pc_lt_of_fetchWord hf
    have hfetched : s.afterTaking.fetched.pc.toNat ≤ 0x1000 := by
      simp only [State.fetched_pc, State.afterTaking_pc]
      bv_omega
    exact exec_withinBounds hfetched ⟨hfetched.trans (by decide), hs.2⟩ hexec
  | tick => exact State.withinBounds_congr (tick_pc _) (tick_stack _) hs
  | load => exact hs
  | release => exact hs
  | releaseIgnored => exact hs
  | cycleAwaiting => exact hs
  | cycleHalted => exact hs
  | cycleResolves => exact hs
  | fetchFails => exact hs

/-! ### The sound -/

/-- R120 reads the trace and ST only. -/
theorem State.audioAgrees_congr {s t : State} (htrace : soundOf t.trace = soundOf s.trace) (hST : t.ST = s.ST)
    (h : s.audioAgrees) : t.audioAgrees := by
  unfold State.audioAgrees State.soundActive
  rw [htrace, hST]
  exact h

/-- R102: a write to ST reports the transition it makes, so starts and stops go on alternating. -/
theorem State.writeST_audioAgrees {s : State} (hs : s.audioAgrees) (v : Byte) : (s.writeST v).audioAgrees := by
  unfold State.audioAgrees State.soundActive at *
  obtain ⟨hST, hv, h⟩ | ⟨hST, hv, h⟩ | ⟨hiff, h⟩ := s.writeST_cases v
  · rw [h, State.emit_trace, soundOf_append]
    simp_all [soundEvent]
  · rw [h, State.emit_trace, soundOf_append]
    simp_all [soundEvent]
  · have hsame : (s.ST != 0) = (v != 0) := Bool.eq_iff_iff.mpr (by rw [bne_iff_ne, bne_iff_ne, Ne, Ne, hiff])
    rw [h, State.setST_trace, hs, State.setST_ST, hsame]

/-- R105: a halt leaves the sound as it is. -/
theorem State.haltedWith_audioAgrees {s : State} (hs : s.audioAgrees) (rec : HaltRecord) :
    (s.haltedWith rec).audioAgrees :=
  State.audioAgrees_congr (soundOf_append _ _) rfl hs

/-- An instruction keeps R120: only a write to ST reports a start or a stop. -/
theorem exec_audioAgrees {i : Instr} {s t : State} (hs : s.audioAgrees) (h : exec i s = .next t) : t.audioAgrees := by
  obtain ⟨herr, -⟩ | ⟨cause, addr, -, rfl⟩ := exec_cases h
  · obtain ⟨htrace, hST⟩ | ⟨e, he, htrace, hST⟩ | ⟨v, rfl⟩ := exec_trace herr h
    · exact State.audioAgrees_congr (by rw [htrace]) hST hs
    · exact State.audioAgrees_congr (by rw [htrace, soundOf_append, soundEvent_request _ he]) hST hs
    · exact State.writeST_audioAgrees hs v
  · exact State.haltedWith_audioAgrees hs _

/-- Settles O24: the sound's events come from instructions and from Ticks, and both report them by a write to ST. -/
theorem soundEventsAlternate : Obligations.SoundEventsAlternate := fun s t hs h => by
  cases step_cases h with
  | reset => rfl
  | execute op _ _ _ _ hexec => exact exec_audioAgrees (s := s.afterTaking.fetched) hs hexec
  | tick => exact State.writeST_audioAgrees (s := s.afterTaking.setDT _) hs _
  | fetchFails => exact State.haltedWith_audioAgrees (s := s.afterTaking.setSession .started) hs _
  | load => exact hs
  | release => exact hs
  | releaseIgnored => exact hs
  | cycleAwaiting => exact hs
  | cycleHalted => exact hs
  | cycleResolves => exact hs

/-! ### The halts -/

/-- A halt entered from a mode that holds none (R105). -/
theorem State.haltedWith_haltAgrees {s : State} (hs : s.haltAgrees) (hm : s.mode = .running) (rec : HaltRecord) :
    (s.haltedWith rec).haltAgrees := by
  have hnone : haltsOf s.trace = [] := by rw [hs, hm]; rfl
  unfold State.haltAgrees
  rw [State.haltedWith_trace, haltsOf_append, hnone]
  rfl

/-- The halts are read from the trace and the mode only. -/
theorem State.haltAgrees_congr {s t : State} (htrace : haltsOf t.trace = haltsOf s.trace)
    (hmode : haltsIn t.mode = haltsIn s.mode) (h : s.haltAgrees) : t.haltAgrees := by
  unfold State.haltAgrees
  rw [htrace, hmode]
  exact h

/-- An instruction enters a halt with its report, or reports none and enters none (R104, R105). -/
theorem exec_haltAgrees {i : Instr} {s t : State} (hs : s.haltAgrees) (hm : s.mode = .running) (h : exec i s = .next t) :
    t.haltAgrees := by
  obtain ⟨herr, -⟩ | ⟨cause, addr, -, rfl⟩ := exec_cases h
  · refine State.haltAgrees_congr (exec_haltsOf herr h) ?_ hs
    obtain hmode | ⟨x, -, hmode⟩ := exec_mode herr h
    · rw [hmode]
    · rw [hmode, hm]
      rfl
  · exact State.haltedWith_haltAgrees hs hm _

/-- Settles O25: halts are entered from Running, with their one report, and every other step reports none. -/
theorem haltReportsMatchTheMode : Obligations.HaltReportsMatchTheMode := fun s t hs h => by
  cases step_cases h with
  | reset => rfl
  | execute op _ _ hm _ hexec => exact exec_haltAgrees (s := s.afterTaking.fetched) hs hm hexec
  | fetchFails _ hm => exact State.haltedWith_haltAgrees (s := s.afterTaking.setSession .started) hs hm _
  | tick =>
    exact State.haltAgrees_congr (s := s) (haltsOf_writeST (s.afterTaking.setDT _) _) (by rw [tick_mode]; rfl) hs
  | release x k _ hm => exact State.haltAgrees_congr (s := s) rfl (by rw [hm]; rfl) hs
  | cycleResolves x k _ hm => exact State.haltAgrees_congr (s := s) rfl (by rw [hm]; rfl) hs
  | load => exact hs
  | releaseIgnored => exact hs
  | cycleAwaiting => exact hs
  | cycleHalted => exact hs

/-! ### The session phase -/

/-- Once a Cycle has been applied, the phase asks nothing more (R43). -/
theorem State.sessionAgrees_of_started {s : State} (h : s.session = .started) : s.sessionAgrees :=
  ⟨fun _ => h, fun hb => by simp [h] at hb, fun hl => by simp [h] at hl⟩

/-- An operation taken from the host's list is no part of the session (log 1). -/
theorem State.afterTaking_sessionAgrees {s : State} (h : s.sessionAgrees) : s.afterTaking.sessionAgrees := by
  obtain ⟨hmode, hbuilt, hloaded⟩ := h
  exact ⟨hmode, fun hb => congrArg State.afterTaking (hbuilt hb), fun hl => congrArg State.afterTaking (hloaded hl)⟩

/-- Before the first Cycle both timers are 0 (R33, R43). -/
theorem State.timers_of_not_started {s : State} (h : s.sessionAgrees) (hs : s.session ≠ .started) :
    s.DT = 0 ∧ s.ST = 0 := by
  obtain ⟨-, hbuilt, hloaded⟩ := h
  cases hp : s.session with
  | built => exact ⟨congrArg State.DT (hbuilt hp), congrArg State.ST (hbuilt hp)⟩
  | loaded => exact ⟨congrArg State.DT (hloaded hp), congrArg State.ST (hloaded hp)⟩
  | started => exact absurd hp hs

/-- R113: a Tick with both timers at 0 changes nothing. -/
theorem tick_of_timers_zero {s : State} (hDT : s.DT = 0) (hST : s.ST = 0) : tick s = s := by
  obtain ⟨_, _, _, _, _, DT, ST⟩ := s
  subst hDT hST
  rfl

/-- Settles O26: a Cycle or a wait means the session has started; a Tick before that finds both timers at 0. -/
theorem sessionPhaseStaysTrue : Obligations.SessionPhaseStaysTrue := fun s t hs h => by
  have hstarted : s.mode ≠ .running → s.session = .started := hs.1
  have htaken := State.afterTaking_sessionAgrees hs
  cases step_cases h with
  | reset => exact ⟨fun hm => absurd rfl hm, fun _ => rfl, fun hl => by cases hl⟩
  | load bytes _ hbuilt =>
    have hfresh := hs.2.1 hbuilt
    refine ⟨fun hm => absurd (congrArg State.mode hfresh) hm, fun hb => (by cases hb), fun _ => ?_⟩
    exact congrArg (fun u : State => (u.afterTaking.setM (s.M.writeList 0x200 bytes)).setSession .loaded) hfresh
  | tick =>
    by_cases hp : s.session = .started
    · exact State.sessionAgrees_of_started ((tick_session _).trans hp)
    · obtain ⟨hDT, hST⟩ := State.timers_of_not_started hs hp
      rw [tick_of_timers_zero (s := s.afterTaking) hDT hST]
      exact htaken
  | release x k _ hm => exact State.sessionAgrees_of_started (hstarted (by simp [hm]))
  | releaseIgnored => exact htaken
  | cycleAwaiting => exact htaken
  | cycleHalted => exact htaken
  | cycleResolves x k _ hm => exact State.sessionAgrees_of_started (hstarted (by simp [hm]))
  | fetchFails => exact State.sessionAgrees_of_started rfl
  | execute op _ _ _ _ hexec =>
    refine State.sessionAgrees_of_started ?_
    obtain ⟨-, hframe⟩ | ⟨cause, addr, -, rfl⟩ := exec_cases hexec
    · exact hframe.session.1
    · rfl

/-! ### Reset -/

/-- Settles O27: nothing is listed in memory, every register and timer is 0, no event was emitted, and the phase is built. -/
theorem resetMeetsTheInvariants : Obligations.ResetMeetsTheInvariants :=
  ⟨Memory.nil_wf, withinBounds_reset, rfl, rfl, fun hm => absurd rfl hm, fun _ => rfl, fun hl => by cases hl⟩

end Sys2Proof.Machine
end

section
/-! PROOFS. What an instruction cannot see (10_state.md R19, R30): it commutes with changing the call stack's entries and the
counters of the free inputs, but for the instructions that read them. -/

namespace Sys2Proof.Machine

/-- The state with other call-stack entries and other counters of the free inputs. -/
def State.hide (s : State) (st : Vector Word 16) (draws reads : Nat) : State :=
  { s with stack := st, randDraws := draws, keyReads := reads }

namespace State
variable (s : State) (st : Vector Word 16) (draws reads : Nat)

theorem skipIf_hide (b : Bool) : (s.hide st draws reads).skipIf b = (s.skipIf b).hide st draws reads := by
  cases b <;> rfl

theorem writeST_hide (v : Byte) : (s.hide st draws reads).writeST v = (s.writeST v).hide st draws reads := by
  have hST : (s.hide st draws reads).ST = s.ST := rfl
  unfold writeST
  rw [hST]
  split_ifs <;> rfl

theorem loadRegs_hide (n : Nat) : (s.hide st draws reads).loadRegs n = (s.loadRegs n).hide st draws reads := by
  induction n with
  | zero => rfl
  | succ n ih =>
    rw [loadRegs, ih]
    rfl

end State

/-- The errors of R104 depend on none of these. -/
theorem errorOf_hide (s : State) (st : Vector Word 16) (draws reads : Nat) (i : Instr) :
    errorOf (s.hide st draws reads) i = errorOf s i := by
  cases i <;> rfl

/-- An instruction that reads neither the call stack nor a free input does the same whatever they hold. -/
theorem exec_hide {i : Instr} {s t : State} (hi : i.mnemonic ∉ ["RET", "CALL", "RND", "SKP", "SKNP"])
    (h : exec i s = .next t) (st : Vector Word 16) (draws reads : Nat) :
    exec i (s.hide st draws reads) = .next (t.hide st draws reads) := by
  have herr' := errorOf_hide s st draws reads i
  obtain ⟨herr, -⟩ | ⟨cause, addr, herr, rfl⟩ := exec_cases h
  · rw [herr] at herr'
    cases i with
    | seImm x nn =>
      cases h
      exact congrArg _ (s.skipIf_hide st draws reads _)
    | sneImm x nn =>
      cases h
      exact congrArg _ (s.skipIf_hide st draws reads _)
    | seReg x y =>
      cases h
      exact congrArg _ (s.skipIf_hide st draws reads _)
    | sneReg x y =>
      cases h
      exact congrArg _ (s.skipIf_hide st draws reads _)
    | ldStVx x =>
      cases h
      exact congrArg _ (s.writeST_hide st draws reads _)
    | drw x y n =>
      cases (exec_drw herr).symm.trans h
      exact exec_drw herr'
    | ldB x =>
      cases (exec_ldB herr).symm.trans h
      exact exec_ldB herr'
    | ldStore x =>
      cases (exec_ldStore herr).symm.trans h
      exact exec_ldStore herr'
    | ldLoad x =>
      cases (exec_ldLoad herr).symm.trans h
      exact (exec_ldLoad herr').trans (congrArg _ (s.loadRegs_hide st draws reads _))
    | ret => exact absurd (by simp [Instr.mnemonic]) hi
    | call nnn => exact absurd (by simp [Instr.mnemonic]) hi
    | rnd x nn => exact absurd (by simp [Instr.mnemonic]) hi
    | skp x => exact absurd (by simp [Instr.mnemonic]) hi
    | sknp x => exact absurd (by simp [Instr.mnemonic]) hi
    | _ =>
      cases h
      rfl
  · exact exec_of_error (herr'.trans herr)

/-! ### The counters of the free inputs -/

/-- Only the instructions that may change the call stack have it in their row of the table. -/
theorem changesOf_callStack {i : Instr} (hi : i.mnemonic ∉ ["RET", "CALL"]) (s : State) :
    (changesOf s i).callStack = false := by
  cases i with
  | ret => exact absurd (by simp [Instr.mnemonic]) hi
  | call nnn => exact absurd (by simp [Instr.mnemonic]) hi
  | _ => rfl

/-- An instruction other than RET and CALL leaves the call stack. -/
theorem exec_callStack {i : Instr} {s t : State} (hi : i.mnemonic ∉ ["RET", "CALL"]) (h : exec i s = .next t) :
    t.stack = s.stack ∧ t.sp = s.sp := by
  obtain ⟨-, hframe⟩ | ⟨cause, addr, -, rfl⟩ := exec_cases h
  · exact hframe.callStack (changesOf_callStack hi s)
  · exact ⟨rfl, rfl⟩

/-- Settles O31: the readers of the counters apart, RET and CALL use the same entries, and every other instruction does not
see them. -/
theorem freeInputReaders : Obligations.FreeInputReaders := fun i s t draws reads hi h => by
  by_cases hcall : i.mnemonic ∈ ["RET", "CALL"]
  · have herr' := errorOf_hide s s.stack draws reads i
    obtain ⟨herr, -⟩ | ⟨cause, addr, herr, rfl⟩ := exec_cases h
    · rw [herr] at herr'
      cases i with
      | ret =>
        cases (exec_ret herr).symm.trans h
        exact exec_ret herr'
      | call nnn =>
        cases (exec_call herr).symm.trans h
        exact exec_call herr'
      | _ => exact absurd hcall (by simp [Instr.mnemonic])
    · exact exec_of_error (herr'.trans herr)
  · have hstack : t.hide s.stack draws reads = t.hide t.stack draws reads := by rw [(exec_callStack hcall h).1]
    exact (exec_hide (by simp_all) h s.stack draws reads).trans (congrArg _ hstack)

/-! ### Call-stack entries not in use -/

/-- The state with other call-stack entries. -/
abbrev State.withStack (s : State) (st : Vector Word 16) : State := s.hide st s.randDraws s.keyReads

theorem State.skipIf_withStack (s : State) (st : Vector Word 16) (b : Bool) :
    (s.withStack st).skipIf b = (s.skipIf b).withStack st := by
  cases b <;> rfl

theorem tick_withStack (s : State) (st : Vector Word 16) : tick (s.withStack st) = (tick s).withStack st := by
  rw [State.withStack, State.withStack, (tick_frame s).randDraws rfl, (tick_frame s).keyReads rfl]
  exact (s.setDT _).writeST_hide st _ _ _

/-- Two stacks agree in the entries in use when `n` are (R19). -/
def AgreeBelow (n : Nat) (stack st : Vector Word 16) : Prop := ∀ j (h : j < 16), j < n → st[j] = stack[j]

/-- Two states that differ in stale entries only are one state with two stacks. -/
theorem sameButStaleStack_iff {s s' : State} :
    SameButStaleStack s s' ↔ ∃ st, s' = s.withStack st ∧ AgreeBelow s.sp.val s.stack st := by
  constructor
  · exact fun ⟨heq, hagree⟩ => ⟨s'.stack, heq, hagree⟩
  · rintro ⟨st, rfl, hagree⟩
    exact ⟨rfl, hagree⟩

/-- An instruction other than the readers of the free inputs leaves their counters. -/
theorem exec_counters {i : Instr} {s t : State} (hi : i.mnemonic ∉ ["RND", "SKP", "SKNP"]) (h : exec i s = .next t) :
    t.randDraws = s.randDraws ∧ t.keyReads = s.keyReads := by
  obtain ⟨-, hframe⟩ | ⟨cause, addr, -, rfl⟩ := exec_cases h
  · cases i with
    | rnd x nn => exact absurd (by simp [Instr.mnemonic]) hi
    | skp x => exact absurd (by simp [Instr.mnemonic]) hi
    | sknp x => exact absurd (by simp [Instr.mnemonic]) hi
    | _ => exact ⟨hframe.randDraws rfl, hframe.keyReads rfl⟩
  · exact ⟨rfl, rfl⟩

/-- An instruction other than RET and CALL does the same whatever the call stack holds. -/
theorem exec_withStack {i : Instr} {s t : State} (hi : i.mnemonic ∉ ["RET", "CALL"]) (h : exec i s = .next t)
    (st : Vector Word 16) : exec i (s.withStack st) = .next (t.withStack st) := by
  by_cases hfree : i.mnemonic ∈ ["RND", "SKP", "SKNP"]
  · cases i with
    | rnd x nn =>
      cases h
      rfl
    | skp x =>
      cases h
      exact congrArg Host.Outcome.next (State.skipIf_withStack (s.recordKeyQuery _ _) st _)
    | sknp x =>
      cases h
      exact congrArg Host.Outcome.next (State.skipIf_withStack (s.recordKeyQuery _ _) st _)
    | _ => exact absurd hfree (by simp [Instr.mnemonic])
  · obtain ⟨hdraws, hreads⟩ := exec_counters hfree h
    rw [State.withStack, State.withStack, hdraws, hreads]
    exact exec_hide (by simp_all) h st s.randDraws s.keyReads

/-- Stale entries stay out of an instruction's reach: a pop reads an entry in use, and a push writes the one it adds. -/
theorem exec_stale {i : Instr} {s t : State} {st : Vector Word 16} (hagree : AgreeBelow s.sp.val s.stack st)
    (h : exec i s = .next t) : ∃ t', exec i (s.withStack st) = .next t' ∧ SameButStaleStack t t' := by
  have herr' := errorOf_hide s st s.randDraws s.keyReads i
  obtain ⟨herr, -⟩ | ⟨cause, addr, herr, rfl⟩ := exec_cases h
  · by_cases hcall : i.mnemonic ∈ ["RET", "CALL"]
    · rw [herr] at herr'
      cases i with
      | ret =>
        cases (exec_ret herr).symm.trans h
        refine ⟨_, exec_ret herr', sameButStaleStack_iff.mpr ⟨st, ?_, fun j hj hlt => hagree j hj ?_⟩⟩
        · have htop : (s.withStack st).top (sp_pos_of_no_error herr') = s.top (sp_pos_of_no_error herr) :=
            hagree _ _ (Nat.sub_lt (sp_pos_of_no_error herr) Nat.one_pos)
          rw [htop]
          rfl
        · exact hlt.trans_le (Nat.sub_le _ _)
      | call nnn =>
        cases (exec_call herr).symm.trans h
        have room := sp_lt_of_no_error herr
        refine ⟨_, exec_call herr', sameButStaleStack_iff.mpr ⟨st.set s.sp.val s.pc room, rfl, fun j hj hlt => ?_⟩⟩
        have hle : j ≤ s.sp.val := Nat.le_of_lt_succ hlt
        rw [State.setPc_stack, State.push_stack, Vector.getElem_set, Vector.getElem_set]
        split_ifs with hsp
        · rfl
        · exact hagree j hj (by omega)
      | _ => exact absurd hcall (by simp [Instr.mnemonic])
    · obtain ⟨hstack, hsp⟩ := exec_callStack hcall h
      refine ⟨_, exec_withStack hcall h st, sameButStaleStack_iff.mpr ⟨st, rfl, ?_⟩⟩
      rwa [hstack, hsp]
  · exact ⟨_, exec_of_error (herr'.trans herr), sameButStaleStack_iff.mpr ⟨st, rfl, hagree⟩⟩

/-- Settles O30: no host operation reads the call stack, and an instruction only its entries in use. -/
theorem staleStackEntriesAreUnobservable : Obligations.StaleStackEntriesAreUnobservable := fun s s' t hsame h => by
  obtain ⟨st, rfl, hagree⟩ := sameButStaleStack_iff.mp hsame
  have hkeep : SameButStaleStack s.afterTaking (s.afterTaking.withStack st) := sameButStaleStack_iff.mpr ⟨st, rfl, hagree⟩
  cases step_cases h with
  | reset hop => exact ⟨_, step_of_reset (s := s.withStack st) hop, rfl, fun _ _ _ => rfl⟩
  | load bytes hop hbuilt hlen =>
    refine ⟨_, (step_of_loadProgram (s := s.withStack st) hop).trans
      (loadProgram_admitted (s := (s.withStack st).afterTaking) hbuilt hlen), ?_⟩
    exact sameButStaleStack_iff.mpr ⟨st, rfl, hagree⟩
  | tick hop =>
    refine ⟨_, step_of_tick (s := s.withStack st) hop, sameButStaleStack_iff.mpr ⟨st, tick_withStack s.afterTaking st, ?_⟩⟩
    obtain ⟨hstack, hsp⟩ := (tick_frame s.afterTaking).callStack rfl
    rw [hstack, hsp]
    exact hagree
  | release x k hop hm =>
    refine ⟨_, step_of_keyRelease (s := s.withStack st) hop, ?_⟩
    rw [keyRelease_awaitingKey (s := (s.withStack st).afterTaking) hm]
    exact sameButStaleStack_iff.mpr ⟨st, rfl, hagree⟩
  | releaseIgnored k hop hm =>
    refine ⟨_, step_of_keyRelease (s := s.withStack st) hop, ?_⟩
    rwa [keyRelease_ignored (s := (s.withStack st).afterTaking) hm]
  | cycleAwaiting x hop hm =>
    exact ⟨_, (step_of_cycle (s := s.withStack st) hop).trans (cycle_awaitingKey hm), hkeep⟩
  | cycleHalted rec hop hm =>
    exact ⟨_, (step_of_cycle (s := s.withStack st) hop).trans (cycle_halted hm), hkeep⟩
  | cycleResolves x k hop hm =>
    refine ⟨_, (step_of_cycle (s := s.withStack st) hop).trans (cycle_keyResolved hm), ?_⟩
    exact sameButStaleStack_iff.mpr ⟨st, rfl, hagree⟩
  | fetchFails hop hm hf =>
    refine ⟨_, (step_of_cycle (s := s.withStack st) hop).trans (cycle_fetchFails hm hf), ?_⟩
    exact sameButStaleStack_iff.mpr ⟨st, rfl, hagree⟩
  | execute op t hop hm hf hexec =>
    obtain ⟨t', ht', hsame'⟩ := exec_stale (s := s.afterTaking.fetched) hagree hexec
    have hrun := cycle_running (s := (s.withStack st).afterTaking) hm hf
    exact ⟨t', (step_of_cycle (s := s.withStack st) hop).trans (hrun.trans ht'), hsame'⟩

end Sys2Proof.Machine
end

section
/-! PROOFS. Which instructions change which component (10_state.md R15, R17 to R25, R31, R32): the rows of `changesOf` that name
a component, and the instructions that can halt. -/

namespace Sys2Proof.Machine

section
variable {i : Instr} {s : State}

/-! ### The rows of the table that name a component -/

theorem mnemonic_of_changesOf_I : (changesOf s i).I = true → i.mnemonic ∈ ["LD.I", "ADD.I", "LD.F"] := by
  cases i <;> simp [changesOf, Instr.mnemonic]

theorem mnemonic_of_changesOf_callStack : (changesOf s i).callStack = true → i.mnemonic ∈ ["RET", "CALL"] := by
  cases i <;> simp [changesOf, Instr.mnemonic]

theorem mnemonic_of_changesOf_DT : (changesOf s i).DT = true → i.mnemonic = "LD.DT_Vx" := by
  cases i <;> simp [changesOf, Instr.mnemonic]

theorem mnemonic_of_changesOf_ST : (changesOf s i).ST = true → i.mnemonic = "LD.ST_Vx" := by
  cases i <;> simp [changesOf, Instr.mnemonic]

theorem mnemonic_of_changesOf_FB : (changesOf s i).FB = true → i.mnemonic ∈ ["CLS", "DRW"] := by
  cases i <;> simp [changesOf, Instr.mnemonic]

theorem mnemonic_of_changesOf_mode : (changesOf s i).mode = true → i.mnemonic = "LD.Vx_K" := by
  cases i <;> simp [changesOf, Instr.mnemonic]

theorem mnemonic_of_changesOf_trace :
    (changesOf s i).trace = true → i.mnemonic ∈ ["CLS", "DRW", "SKP", "SKNP", "LD.ST_Vx"] := by
  cases i <;> simp [changesOf, Instr.mnemonic]

theorem mnemonic_of_changesOf_pc : (changesOf s i).pc = true →
    i.mnemonic ∈ ["RET", "JP", "CALL", "JP.V0", "SE.imm", "SNE.imm", "SE.reg", "SNE.reg", "SKP", "SKNP"] := by
  cases i <;> simp [changesOf, Instr.mnemonic]

theorem mnemonic_of_changesOf_stored : (changesOf s i).stored ≠ (0, 0) → i.mnemonic ∈ ["LD.B", "LD.store"] := by
  cases i <;> simp [changesOf, Instr.mnemonic]

/-- The instructions that R104 names. -/
theorem mnemonic_of_errorOf {e : Cause × Option Nat} (h : errorOf s i = some e) :
    i.mnemonic ∈ ["RET", "CALL", "DRW", "LD.B", "LD.store", "LD.load"] := by
  revert h
  cases i <;> simp [errorOf, Instr.mnemonic]

/-- A call is the one instruction that writes a call-stack entry: a return only moves `sp` (R19, D10). -/
theorem mnemonic_of_stack_ne {t : State} (herr : errorOf s i = none) (h : exec i s = .next t) (hne : t.stack ≠ s.stack) :
    i.mnemonic = "CALL" := by
  have hframe := exec_frame herr h
  cases i with
  | call nnn => rfl
  | ret =>
    cases (exec_ret herr).symm.trans h
    exact absurd rfl hne
  | _ => exact absurd (hframe.callStack rfl).1 hne

end

/-- Settles O21: a component an instruction changes is named by its row of the table, and a halt changes the mode and the
trace only. -/
theorem stateComponentWriters : Obligations.StateComponentWriters := fun i s t h => by
  obtain ⟨herr, hframe⟩ | ⟨cause, addr, herr, rfl⟩ := exec_cases h
  · refine ⟨fun hne => mnemonic_of_changesOf_I (eq_true_of_ne_false (mt hframe.I hne)),
      mnemonic_of_stack_ne herr h,
      fun hne => mnemonic_of_changesOf_callStack (eq_true_of_ne_false fun hc => hne (hframe.callStack hc).2),
      fun hne => mnemonic_of_changesOf_DT (eq_true_of_ne_false (mt hframe.DT hne)),
      fun hne => mnemonic_of_changesOf_ST (eq_true_of_ne_false (mt hframe.ST hne)),
      fun hne => mnemonic_of_changesOf_FB (eq_true_of_ne_false (mt hframe.FB hne)),
      fun a hne => mnemonic_of_changesOf_stored (s := s) fun hc => hne (hframe.memory a (by simp [hc])),
      fun hne => ?_, fun hne => ?_,
      fun hne => mnemonic_of_changesOf_pc (eq_true_of_ne_false (mt hframe.pc hne)), hframe.session⟩
    · simp [mnemonic_of_changesOf_mode (eq_true_of_ne_false (mt hframe.mode hne))]
    · exact List.mem_append_left ["RET", "CALL", "LD.B", "LD.store", "LD.load"]
        (mnemonic_of_changesOf_trace (eq_true_of_ne_false (mt hframe.trace hne)))
  · have hmnemonic := mnemonic_of_errorOf herr
    refine ⟨absurd rfl, absurd rfl, absurd rfl, absurd rfl, absurd rfl, absurd rfl, fun _ => absurd rfl,
      fun _ => List.mem_cons_of_mem "LD.Vx_K" hmnemonic, fun _ => ?_, absurd rfl, rfl, rfl⟩
    simp only [List.mem_cons, List.not_mem_nil, or_false] at hmnemonic ⊢
    tauto

/-! ### VF -/

/-- R15, C1: the rows that name VF are the flag writers', and a destination's whose x field is 0xF. -/
theorem mnemonic_of_vf_mem_changesOf {i : Instr} {s : State} (h : (0xF : Nibble) ∈ (changesOf s i).regs) :
    i.mnemonic ∈ ["ADD.reg", "SUB", "SUBN", "SHR", "SHL", "DRW", "ADD.I"] ∨
    (i.mnemonic ∈ ["LD.imm", "ADD.imm", "LD.reg", "OR", "AND", "XOR", "RND", "LD.Vx_DT", "LD.load"] ∧
      (fields (encode i)).x = 0xF) := by
  cases i with
  | ldLoad x =>
    have hx : x = 0xF := by
      obtain ⟨j, hj, hvf⟩ := List.mem_map.mp h
      rw [List.mem_range] at hj
      bv_omega
    subst hx
    exact .inr (by simp [Instr.mnemonic, encode])
  | _ =>
    revert h
    simp [changesOf, Instr.mnemonic, encode, eq_comm]

/-- Settles O20: a register an instruction changes is named by its row of the table, and a halt changes none. -/
theorem flagRegisterWriters : Obligations.FlagRegisterWriters := fun i s t h hne => by
  obtain ⟨-, hframe⟩ | ⟨cause, addr, -, rfl⟩ := exec_cases h
  · exact mnemonic_of_vf_mem_changesOf (not_not.mp (mt (hframe.regs 0xF) hne))
  · exact absurd rfl hne

end Sys2Proof.Machine
end

section
/-! PROOFS. The host's operations (40_cycle.md R61 to R65, 60_exceptions.md R106, R113 to R117, 20_memory.md R43,
70_reset_and_hazards.md R126): one step in each mode, the transitions of the input wait, and what a halt leaves. -/

namespace Sys2Proof.Machine

/-! ### Cycle -/

/-- Settles O7. -/
theorem stepRunsTheDecodedInstruction : Obligations.StepRunsTheDecodedInstruction := fun _ => step_running

/-- Settles O9: the fetch fails, and its halt names `pc` and no opcode. -/
theorem fetchOutsideMemoryHalts : Obligations.FetchOutsideMemoryHalts := fun s hop hm hpc =>
  (step_of_cycle hop).trans (cycle_fetchFails (s := s.afterTaking) hm (State.fetchWord_eq_none hpc))

/-- The key's value in its register, and the return to Running, change nothing else (R63). -/
theorem State.writeV_setMode_frame (s : State) (x : Nibble) (v : Byte) (m : Mode) :
    Frame { regs := [x], mode := true } s ((s.writeV x v).setMode m) := by
  have hmode : ∀ u : State, Frame { regs := [x], mode := true } u (u.setMode m) := fun u => by constructor <;> simp
  exact (s.writeV_frame v (by simp)).trans (hmode _)

/-- A key's number as a byte is the same number. -/
theorem setWidth_nibble_toNat (k : Nibble) : (k.setWidth 8).toNat = k.toNat :=
  BitVec.toNat_setWidth_of_le (by decide)

/-- Settles O10: the modes of R62 and R63, one lemma of `cycle` each. -/
theorem cycleOutsideRunning : Obligations.CycleOutsideRunning := fun s hop =>
  ⟨fun _ hm => (step_of_cycle hop).trans (cycle_awaitingKey hm),
    fun _ hm => (step_of_cycle hop).trans (cycle_halted hm),
    fun x k hm => ⟨_, (step_of_cycle hop).trans (cycle_keyResolved hm), by
      rw [State.setMode_readV, State.readV_writeV_self, setWidth_nibble_toNat], rfl,
      s.afterTaking.writeV_setMode_frame x _ _⟩⟩

/-! ### KeyRelease, LoadProgram and Reset -/

/-- Settles O12: a release is recorded while a key is awaited, and ignored in every other mode. -/
theorem keyReleaseIsRecordedOnce : Obligations.KeyReleaseIsRecordedOnce := fun s k hop =>
  ⟨fun _ hm => (step_of_keyRelease hop).trans (congrArg _ (keyRelease_awaitingKey (s := s.afterTaking) hm k)),
    fun hm => (step_of_keyRelease hop).trans (congrArg _ (keyRelease_ignored (s := s.afterTaking) hm k))⟩

/-- Settles O13: the load writes the program's bytes, which end at 0xFFF at the latest. -/
theorem loadProgramCopiesItsBytes : Obligations.LoadProgramCopiesItsBytes := fun s bytes hop hbuilt hlen hwf =>
  ⟨_, (step_of_loadProgram hop).trans (loadProgram_admitted (s := s.afterTaking) hbuilt hlen),
    fun _ hj => Memory.read_writeList_inside hwf (by simp only [Config.memSize]; omega) hj,
    fun _ ha => Memory.read_writeList_outside s.M 0x200 bytes ha, rfl⟩

/-- Settles O14: a load is refused outside the state `Reset` builds, or for its length; every other operation answers. -/
theorem onlyUnadmittedLoadIsRefused : Obligations.OnlyUnadmittedLoadIsRefused := fun s => by
  refine ⟨fun bytes hop => ⟨fun hs => ?_, fun hs hlen => ?_⟩, fun hadmitted => ?_⟩
  · rw [step_of_loadProgram hop, loadProgram_notAdmitted (s := s.afterTaking) hs]
  · rw [step_of_loadProgram hop, loadProgram_tooLong (s := s.afterTaking) hs hlen]
  · cases hop : nextOp s with
    | reset => exact ⟨_, step_of_reset hop⟩
    | tick => exact ⟨_, step_of_tick hop⟩
    | keyRelease k => exact ⟨_, step_of_keyRelease hop⟩
    | loadProgram bytes =>
      obtain ⟨hs, hlen⟩ := hadmitted bytes hop
      exact ⟨_, (step_of_loadProgram hop).trans (loadProgram_admitted (s := s.afterTaking) hs hlen)⟩
    | cycle =>
      obtain ⟨t, ht⟩ := cycle_next s.afterTaking
      exact ⟨t, (step_of_cycle hop).trans ht⟩

/-- An address past FONT reads as 0 when nothing is listed there (R24, R126). -/
theorem Memory.unlisted_of_le {a : Nat} (ha : 80 ≤ a) : Memory.unlisted a = 0 :=
  List.getD_eq_default _ _ ha

/-- Settles O15: the registers and the stack are replicated zeros, memory lists nothing, and FONT is 80 bytes. -/
theorem resetState : Obligations.ResetState := by
  refine ⟨fun r => ?_, rfl, rfl, fun e he => ?_, rfl, rfl, rfl, rfl, rfl, fun a ha => ?_, fun a ha => ?_,
    FrameBuffer.allOff_pixel, rfl⟩
  · simp [State.readV, State.reset]
  · simpa [State.reset] using he
  · exact List.getD_eq_getElem _ _ ha
  · exact Memory.unlisted_of_le ha

/-- Settles O16. -/
theorem resetDiscardsTheSession : Obligations.ResetDiscardsTheSession := fun _ => step_of_reset

/-! ### A word placed by `withFetchWord` -/

/-- An opcode can be fetched where a word is placed (log 20). -/
theorem fetchablePc_lt (s : State) : (fetchablePc s).toNat + 1 < 4096 := by
  unfold fetchablePc
  split_ifs with hpc
  · exact hpc
  · decide

/-- A word written as two bytes, high byte first, is what the two reads give (R40, R47). -/
theorem Memory.read_writeList_opcode {m : Memory} (hwf : m.wf) {a : Nat} (ha : a + 1 < 4096) (op : Word) :
    (m.writeList a [op.extractLsb' 8 8, op.extractLsb' 0 8]).read a ++
      (m.writeList a [op.extractLsb' 8 8, op.extractLsb' 0 8]).read (a + 1) = op := by
  have hfit : a + [op.extractLsb' 8 8, op.extractLsb' 0 8].length ≤ Config.memSize := by
    simp only [Config.memSize, List.length_cons, List.length_nil]
    omega
  have hhi := Memory.read_writeList_inside hwf hfit (j := 0) (by simp)
  have hlo := Memory.read_writeList_inside hwf hfit (j := 1) (by simp)
  rw [Nat.add_zero] at hhi
  rw [hhi, hlo]
  exact opcodeOfBytes_extractLsb' op

/-- Settles O8: the placed state runs a Cycle in mode Running at a `pc` where the word's own bytes stand. -/
theorem placedWordRunsNext : Obligations.PlacedWordRunsNext := fun s w hwf => by
  have hword : tableOpcode 16 w = BitVec.ofNat 16 w := by
    apply BitVec.eq_of_toNat_eq
    simp [tableOpcode]
  have hstep := step_running (s := s.withFetchWord 16 w) rfl rfl (fetchablePc_lt s)
  rw [← hword]
  refine hstep.trans ?_
  have hread := Memory.read_writeList_opcode hwf (fetchablePc_lt s) (tableOpcode 16 w)
  exact congrArg (fun op => exec (decode op) (s.withFetchWord 16 w).fetched) hread

/-! ### The input wait, and Halted -/

/-- A Cycle that executes leaves mode Running only to await a key, for LD Vx, K, or to halt (R103, R105). -/
theorem exec_mode_cases {i : Instr} {s t : State} (hm : s.mode = .running) (h : exec i s = .next t) :
    t.mode = .running ∨ (∃ x, t.mode = .awaitingKey x ∧ i = .ldVxK x) ∨ ∃ rec, t.mode = .halted rec := by
  obtain ⟨herr, -⟩ | ⟨cause, addr, -, rfl⟩ := exec_cases h
  · obtain hmode | ⟨x, hi, hmode⟩ := exec_mode herr h
    · exact .inl (hmode.trans hm)
    · exact .inr (.inl ⟨x, hmode, hi⟩)
  · exact .inr (.inr ⟨_, rfl⟩)

/-- R117, the transitions from Running: they are the Cycle's. -/
theorem mode_of_step_running {s t : State} (hop : nextOp s ≠ .reset) (h : step s = .next t) (hm : s.mode = .running) :
    t.mode = .running ∨
    (∃ x, t.mode = .awaitingKey x ∧ nextOp s = .cycle ∧ ∃ op, s.fetchWord = some op ∧ decode op = .ldVxK x) ∨
    (∃ rec, t.mode = .halted rec ∧ nextOp s = .cycle) := by
  cases step_cases h with
  | reset hreset => exact absurd hreset hop
  | load => exact .inl hm
  | tick => exact .inl ((tick_mode _).trans hm)
  | release x k _ hm' => simp [hm] at hm'
  | releaseIgnored => exact .inl hm
  | cycleAwaiting x _ hm' => simp [hm] at hm'
  | cycleHalted rec _ hm' => simp [hm] at hm'
  | cycleResolves x k _ hm' => simp [hm] at hm'
  | fetchFails hcycle => exact .inr (.inr ⟨_, rfl, hcycle⟩)
  | execute op _ hcycle _ hf hexec =>
    obtain hmode | ⟨x, hmode, hi⟩ | ⟨rec, hmode⟩ := exec_mode_cases (s := s.afterTaking.fetched) hm hexec
    · exact .inl hmode
    · exact .inr (.inl ⟨x, hmode, hcycle, op, hf, hi⟩)
    · exact .inr (.inr ⟨rec, hmode, hcycle⟩)

/-- R103, R117: the Cycle that executes LD Vx, K enters the wait and does nothing else. -/
theorem step_of_ldVxK {s : State} {op : Word} {x : Nibble} (hm : s.mode = .running) (hop : nextOp s = .cycle)
    (hf : s.fetchWord = some op) (hdecode : decode op = .ldVxK x) :
    step s = .next { s.afterTaking.fetched with mode := .awaitingKey x } := by
  rw [step_of_cycle hop, cycle_running (s := s.afterTaking) hm hf, hdecode]
  rfl

/-- Outside Running, an operation other than Reset, a recorded release and the resolving Cycle keeps the mode (R117). -/
theorem mode_of_step_waiting {s t : State} (hop : nextOp s ≠ .reset) (h : step s = .next t) (hm : s.mode ≠ .running)
    (hrelease : ∀ x k, s.mode = .awaitingKey x → nextOp s ≠ .keyRelease k)
    (hresolve : ∀ x k, s.mode = .keyResolved x k → nextOp s ≠ .cycle) : t.mode = s.mode := by
  cases step_cases h with
  | reset hreset => exact absurd hreset hop
  | load => rfl
  | tick => exact tick_mode _
  | release x k hk hm' => exact absurd hk (hrelease x k hm')
  | releaseIgnored => rfl
  | cycleAwaiting => rfl
  | cycleHalted => rfl
  | cycleResolves x k hcycle hm' => exact absurd hcycle (hresolve x k hm')
  | fetchFails _ hm' => exact absurd hm' hm
  | execute _ _ _ hm' => exact absurd hm' hm

/-- Settles O19, mode by mode. -/
theorem inputWaitTransitions : Obligations.InputWaitTransitions := fun s t hop h => by
  have hnext : ∀ {u}, step s = .next u → t = u := fun hu => by
    cases h.symm.trans hu
    rfl
  refine ⟨mode_of_step_running hop h, fun op x hm hcycle hf hdecode => hnext (step_of_ldVxK hm hcycle hf hdecode),
    fun x hm => ⟨fun hcycle => ?_, fun k hk => ?_, fun hk => ?_⟩,
    fun x k hm => ⟨fun hcycle => ?_, fun k' hk => ?_, fun hcycle => ?_⟩, fun htick => ?_, fun rec hm => ?_⟩
  · exact hnext ((cycleOutsideRunning s hcycle).1 x hm)
  · exact hnext ((keyReleaseIsRecordedOnce s k hk).1 x hm)
  · exact (mode_of_step_waiting hop h (by simp [hm]) (fun _ k _ => hk k) (by simp [hm])).trans hm
  · cases h.symm.trans ((step_of_cycle hcycle).trans (cycle_keyResolved (s := s.afterTaking) hm))
    exact ⟨rfl, by simp, s.afterTaking.writeV_setMode_frame x _ _⟩
  · exact hnext ((keyReleaseIsRecordedOnce s k' hk).2 (by simp [hm]))
  · exact (mode_of_step_waiting hop h (by simp [hm]) (by simp [hm]) (fun _ _ _ => hcycle)).trans hm
  · cases h.symm.trans (step_of_tick htick)
    exact ⟨tick_mode _, tick_frame _⟩
  · exact (mode_of_step_waiting hop h (by simp [hm]) (by simp [hm]) (by simp [hm])).trans hm

/-- Settles O18: in Halted only a Tick is more than taken from the host's list, since a load needs a session not started. -/
theorem haltedIsTerminal : Obligations.HaltedIsTerminal := fun s t rec hs hm hop h => by
  have hidle : nextOp s ≠ .tick → t = s.afterTaking := fun hnotick => by
    cases step_cases h with
    | reset hreset => exact absurd hreset hop
    | load bytes _ hbuilt =>
      have hstarted := hs.1 (by simp [hm])
      simp [hbuilt] at hstarted
    | tick htick => exact absurd htick hnotick
    | release x k _ hm' => simp [hm] at hm'
    | releaseIgnored => rfl
    | cycleAwaiting => rfl
    | cycleHalted => rfl
    | cycleResolves x k _ hm' => simp [hm] at hm'
    | fetchFails _ hm' => simp [hm] at hm'
    | execute _ _ _ hm' => simp [hm] at hm'
  by_cases htick : nextOp s = .tick
  · cases h.symm.trans (step_of_tick htick)
    refine ⟨hidle, ?_, haltsOf_writeST _ _, tick_frame _⟩
    rw [tick_trace]
    exact congrArg (s.trace ++ ·) (if_congr (and_iff_right htick).symm rfl rfl)
  · cases hidle htick
    exact ⟨hidle, by simp [htick], rfl, Frame.refl _ _⟩

end Sys2Proof.Machine
end

section
/-! PROOFS. Single instructions: the call stack and JP V0 (41_control_flow.md R69, R71, R72), the ALU's flag writers
(42_register_alu.md R83 to R88), Fx1E (43_index_memory.md R91), and the key skips (44_timer_key_display.md R98, R99). -/

namespace Sys2Proof.Machine

/-! ### Control flow -/

/-- Settles O36: the entry popped is the top one, and an empty stack is the error of R104. -/
theorem returnPopsTheStack : Obligations.ReturnPopsTheStack := fun s =>
  ⟨fun used => ⟨_, exec_ret (by simp [errorOf]; omega), rfl, rfl, rfl, s.dropTop_setPc_frame _⟩,
    fun hsp => exec_of_error (by simp [errorOf, hsp])⟩

/-- Settles O37: the entry pushed is `pc`, and a full stack is the error of R104. -/
theorem callPushesTheReturnAddress : Obligations.CallPushesTheReturnAddress := fun nnn s => by
  refine ⟨fun room => ?_, fun hsp => exec_of_error (by simp [errorOf, hsp])⟩
  refine ⟨_, exec_call (by simp [errorOf]; omega), addrWord_toNat nnn, rfl, ?_, fun j hj hne => ?_,
    s.push_setPc_frame _ _ room⟩
  · simp
  · rw [State.setPc_stack, State.push_stack, Vector.getElem_set_ne _ _ (Ne.symm hne)]

/-- Settles O39: at most 0xFFF + 0xFF, so the sum of words is the sum of numbers. -/
theorem jumpWithOffsetAddsV0 : Obligations.JumpWithOffsetAddsV0 := fun nnn s =>
  ⟨_, exec_jpV0 nnn s, offsetTarget_toNat nnn _, s.setPc_frame _⟩

/-! ### The flag writers -/

section
variable (a : Byte)

/-- A flag as a byte. -/
theorem flagByte_decide (p : Prop) [Decidable p] : flagByte (decide p) = if p then 1 else 0 := by
  by_cases hp : p <;> simp [flagByte, hp]

theorem flagByte_lowBit : (flagByte (lowBit a)).toNat = a.toNat % 2 := by
  have hbit : lowBit a = decide (a.toNat % 2 = 1) := by
    simp [lowBit, BitVec.getLsbD, Nat.testBit_zero]
  rw [hbit, flagByte_decide]
  split_ifs with h
  · exact h.symm
  · have : a.toNat % 2 = 0 := by omega
    exact this.symm

theorem flagByte_highBit : (flagByte (highBit a)).toNat = a.toNat / 128 := by
  have hbit : highBit a = decide (128 ≤ a.toNat) := by
    have hmsb := BitVec.msb_eq_decide a
    rwa [BitVec.msb_eq_getLsbD_last] at hmsb
  rw [hbit, flagByte_decide]
  split_ifs with h
  · have : a.toNat / 128 = 1 := by omega
    exact this.symm
  · have : a.toNat / 128 = 0 := by omega
    exact this.symm

end

/-- An instruction that executes as a result in Vx and a flag in VF: the result is what Vx holds unless Vx is VF, where the
flag is (R15, R89, D11). -/
theorem exec_writeResult {i : Instr} {s : State} {x : Nibble} {r : Byte} {flag : Bool} {P Q : State → Prop}
    (hexec : exec i s = .next (s.writeResult x r flag))
    (hP : ∀ t : State, t.readV x = r → P t) (hQ : ∀ t : State, t.readV 0xF = flagByte flag → Q t) :
    ∃ t, exec i s = .next t ∧ (x ≠ 0xF → P t) ∧ Q t ∧ Frame { regs := [x, 0xF] } s t := by
  refine ⟨_, hexec, fun hx => hP _ ?_, hQ _ ?_, s.writeResult_frame x r flag⟩
  · rw [State.readV_writeResult, if_neg hx, if_pos rfl]
  · rw [State.readV_writeResult, if_pos rfl]

/-- Settles O44: carry and NOT borrow are comparisons of numbers, and the results wrap at the width of a byte. -/
theorem addAndSubtractWithFlag : Obligations.AddAndSubtractWithFlag := fun x y s =>
  ⟨exec_writeResult (exec_addReg x y s) (fun _ ht => by rw [ht, BitVec.toNat_add])
      fun _ ht => ht.trans (flagByte_decide _),
    exec_writeResult (exec_sub x y s) (fun _ ht => by rw [ht]; bv_omega) fun _ ht => ht.trans (flagByte_decide _),
    exec_writeResult (exec_subn x y s) (fun _ ht => by rw [ht]; bv_omega) fun _ ht => ht.trans (flagByte_decide _)⟩

/-- Settles O45: a shift by one halves or doubles Vy, and the flag is the bit that falls out. -/
theorem shiftsByOne : Obligations.ShiftsByOne := fun x y s =>
  ⟨exec_writeResult (exec_shr x y s)
      (fun _ ht => by rw [ht, BitVec.toNat_ushiftRight, Nat.shiftRight_eq_div_pow, pow_one])
      fun _ ht => by rw [ht, flagByte_lowBit],
    exec_writeResult (exec_shl x y s)
      (fun _ ht => by rw [ht, BitVec.toNat_shiftLeft, Nat.shiftLeft_eq, pow_one])
      fun _ ht => by rw [ht, flagByte_highBit]⟩

/-- Settles O46: the byte written is the AND of the byte drawn and nn, bit by bit. -/
theorem randomByteIsMasked : Obligations.RandomByteIsMasked := fun x nn s =>
  ⟨_, exec_rnd x nn s, fun b => by rw [randomMasked, State.readV_writeV_self, BitVec.getLsbD_and], rfl,
    s.randomMasked_frame _ _ _⟩

/-- Settles O48: the sum wraps at 16 bits, and the flag compares the sum that does not. -/
theorem indexAddSetsOverflowFlag : Obligations.IndexAddSetsOverflowFlag := fun x s => by
  refine ⟨_, exec_addI x s, ?_, ?_, s.setI_writeFlag_frame _ _⟩
  · have hI : ((s.setI (indexSum s.I (s.readV x))).writeFlag (indexOverflow s.I (s.readV x))).I =
        s.I + (s.readV x).setWidth 16 := rfl
    rw [hI]
    bv_omega
  · rw [State.writeFlag, State.readV_writeV_self]
    exact flagByte_decide _

/-! ### The key skips -/

/-- R98, R99, D12: the key asked about is the low nibble. -/
theorem keyNumber_eq {v : Byte} {k : Nibble} (h : k.toNat = v.toNat % 16) : keyNumber v = k := by
  apply BitVec.eq_of_toNat_eq
  rw [h, keyNumber, BitVec.extractLsb'_toNat, Nat.shiftRight_zero]

/-- Settles O54: both ask the same key, and skip on the answer or on its negation. -/
theorem keySkipsFollowTheAnswer : Obligations.KeySkipsFollowTheAnswer := fun x s k hk => by
  have hkey := keyNumber_eq hk
  have hskp := exec_skp x s
  have hsknp := exec_sknp x s
  rw [State.keyAnswer, hkey] at hskp hsknp
  exact ⟨⟨_, hskp, by simp, by simp, by simp, s.recordKeyQuery_skipIf_frame _ _ _⟩,
    ⟨_, hsknp, by simp, by simp, by simp, s.recordKeyQuery_skipIf_frame _ _ _⟩⟩

end Sys2Proof.Machine
end

section
/-! PROOFS. The memory transfers (43_index_memory.md R93 to R95), what a fetch sees of a store (20_memory.md R49), and the
canonical form as a representation of memory's contents (20_memory.md R36). -/

namespace Sys2Proof.Machine

/-- Settles O49: the three digits are written at I and up, and the check of three bytes is the error of R104. -/
theorem decimalDigitsAreStored : Obligations.DecimalDigitsAreStored := fun x s => by
  refine ⟨fun hwf hI => ?_, fun hI => exec_of_error (by simp [errorOf, hI])⟩
  have hfit : s.I.toNat + (decimalDigits (s.readV x)).length ≤ Config.memSize := by
    simp only [Config.memSize, decimalDigits_length]
    omega
  have hread := fun j hj => Memory.read_writeList_inside hwf hfit (j := j) hj
  refine ⟨_, exec_ldB (by simp [errorOf]; omega), ?_, ?_, ?_, s.setM_writeList_frame _ (decimalDigits_length _)⟩
  · exact (congrArg BitVec.toNat (hread 0 (by simp))).trans (by simp [decimalDigits])
  · exact (congrArg BitVec.toNat (hread 1 (by simp))).trans (by simp [decimalDigits])
  · exact (congrArg BitVec.toNat (hread 2 (by simp))).trans (by simp [decimalDigits])

/-- R94: after a store inside memory, the byte at I + j is Vj. -/
theorem read_ldStore {s : State} {x : Nibble} (hwf : s.M.wf) (hI : s.I.toNat + x.toNat < 4096) {j : Nat} (hj : j ≤ x.toNat) :
    (s.M.writeList s.I.toNat (s.firstRegs (transferCount x))).read (s.I.toNat + j) = s.readV (BitVec.ofNat 4 j) := by
  have hfit : s.I.toNat + (s.firstRegs (transferCount x)).length ≤ Config.memSize := by
    simp only [Config.memSize, State.firstRegs_length, transferCount]
    omega
  have hj' : j < transferCount x := Nat.lt_succ_of_le hj
  rw [Memory.read_writeList_inside hwf hfit (by rwa [State.firstRegs_length]), State.firstRegs_getElem s hj']

/-- Settles O50: the bytes stored are the registers', and the check of x + 1 bytes is the error of R104. -/
theorem registersAreStored : Obligations.RegistersAreStored := fun x s => by
  refine ⟨fun hwf hI => ?_, fun hI => exec_of_error (by simp [errorOf, hI])⟩
  refine ⟨_, exec_ldStore (by simp [errorOf]; omega), fun j hj => ?_, s.setM_writeList_frame _ (s.firstRegs_length _)⟩
  rw [State.setM_M, read_ldStore hwf hI hj, BitVec.ofNat_toNat, BitVec.setWidth_eq]

/-- Settles O51: the registers loaded are V0 to Vx, and the check of x + 1 bytes is the error of R104. -/
theorem registersAreLoaded : Obligations.RegistersAreLoaded := fun x s => by
  refine ⟨fun hI => ?_, fun hI => exec_of_error (by simp [errorOf, hI])⟩
  have hcount : transferCount x ≤ 16 := x.isLt
  refine ⟨_, exec_ldLoad (by simp [errorOf]; omega), fun j hj => ?_, fun j hj => ?_, s.loadRegs_frame _⟩
  · rw [State.readV_loadRegs s hcount, if_pos (by unfold transferCount; omega)]
  · rw [State.readV_loadRegs s hcount, if_neg (by unfold transferCount; omega)]

/-- Settles O29: the fetch reads the two bytes the store wrote there. -/
theorem storedBytesAreFetched : Obligations.StoredBytesAreFetched := fun x s j hwf hI hj hpc => by
  refine ⟨_, exec_ldStore (by simp [errorOf]; omega), ?_⟩
  rw [State.fetchWord_eq_some (by rw [State.setM_pc]; omega), State.setM_M, State.setM_pc, hpc, Nat.add_assoc,
    read_ldStore hwf hI hj.le, read_ldStore hwf hI hj]

/-! ### Canonical memories are their contents -/

namespace Memory
variable {a b : Nat} {v w : Byte} {m m' : Memory}

/-- What is canonical about the bytes after the first. -/
theorem wf_cons (h : wf ((a, v) :: m)) : Above m a ∧ a < 4096 ∧ v ≠ unlisted a ∧ wf m := by
  obtain ⟨hsorted, hbytes⟩ := h
  obtain ⟨habove, hsorted⟩ := List.pairwise_cons.mp hsorted
  obtain ⟨ha, hv⟩ := hbytes (a, v) List.mem_cons_self
  exact ⟨habove, ha, hv, hsorted, fun c hc => hbytes c (List.mem_cons_of_mem _ hc)⟩

/-- A canonical memory shows its first listed byte at that address. -/
theorem read_cons_self : read ((a, v) :: m) a = v := if_pos rfl

theorem read_cons_of_ne (h : a ≠ b) : read ((a, v) :: m) b = read m b := if_neg h

/-- A memory with a byte listed at `a` differs there from one that lists nothing up to `a`. -/
theorem read_ne_of_above (h : wf ((a, v) :: m)) (h' : Above m' a) : read ((a, v) :: m) a ≠ read m' a := by
  obtain ⟨-, -, hv, -⟩ := wf_cons h
  rwa [read_cons_self, read_of_above h']

/-- What follows a first byte below `b` lists nothing up to `b` from the other side: a first address bounds the rest. -/
theorem above_cons (h : Above m b) (hab : a < b) : Above ((b, w) :: m) a := by
  intro c hc
  rcases List.mem_cons.mp hc with rfl | hc
  · exact hab
  · exact hab.trans (h c hc)

/-- Two canonical memories that read the same below 4096 list the same bytes: the one with the lower first address would
differ from the other there, and past equal first addresses the rests read the same. -/
theorem eq_of_read_eq (hwf : wf m) (hwf' : wf m') (h : ∀ a, a < 4096 → m.read a = m'.read a) : m = m' := by
  induction m generalizing m' with
  | nil =>
    cases m' with
    | nil => rfl
    | cons c' rest' =>
      obtain ⟨-, hb, -, -⟩ := wf_cons hwf'
      exact absurd (h _ hb).symm (read_ne_of_above hwf' (by simp))
  | cons c rest ih =>
    obtain ⟨a, v⟩ := c
    obtain ⟨habove, ha, hv, hrest⟩ := wf_cons hwf
    cases m' with
    | nil => exact absurd (h a ha) (read_ne_of_above hwf (by simp))
    | cons c' rest' =>
      obtain ⟨b, w⟩ := c'
      obtain ⟨habove', hb, hw, hrest'⟩ := wf_cons hwf'
      obtain hab | rfl | hba := Nat.lt_trichotomy a b
      · exact absurd (h a ha) (read_ne_of_above hwf (above_cons habove' hab))
      · have hvw : v = w := (read_cons_self (m := rest)).symm.trans ((h a ha).trans read_cons_self)
        have hsame : ∀ c, c < 4096 → read rest c = read rest' c := fun c hc => by
          by_cases hac : a = c
          · rw [← hac, read_of_above habove, read_of_above habove']
          · have hc' := h c hc
            rwa [read_cons_of_ne hac, read_cons_of_ne hac] at hc'
        rw [hvw, ih hrest hrest' hsame]
      · exact absurd (h b hb).symm (read_ne_of_above hwf' (above_cons habove hba))

end Memory

/-- Settles O28. -/
theorem equalReadsMeanEqualMemory : Obligations.EqualReadsMeanEqualMemory := fun _ _ => Memory.eq_of_read_eq

end Sys2Proof.Machine
end

section
/-! PROOFS. Runs (60_exceptions.md R113 to R117, 70_reset_and_hazards.md R129): Ticks and idle Cycles in any number, the wait
that ends with a release, and the run with nothing loaded. -/

namespace Sys2Proof.Machine

/-! ### Waiting -/

/-- What `n` Ticks make of the timers and the trace, from `s` to `t` (R113, R115). -/
structure TimersRunDown (n : Nat) (s t : State) : Prop where
  DT : t.DT.toNat = s.DT.toNat - n
  ST : t.ST.toNat = s.ST.toNat - n
  trace : t.trace = s.trace ++ (if 0 < s.ST.toNat ∧ s.ST.toNat ≤ n then [.soundStop] else [])

namespace TimersRunDown

/-- No Tick. -/
theorem zero (s : State) : TimersRunDown 0 s s where
  DT := rfl
  ST := rfl
  trace := by rw [if_neg (by omega), List.append_nil]

/-- One Tick and `n` more: the stop is reported by the one that takes ST to 0. -/
theorem succ {n : Nat} {s t : State} (h : TimersRunDown n (tick s) t) : TimersRunDown (n + 1) s t where
  DT := by rw [h.DT, tick_DT, countDown_toNat, Nat.sub_sub, Nat.add_comm 1 n]
  ST := by rw [h.ST, tick_ST, countDown_toNat, Nat.sub_sub, Nat.add_comm 1 n]
  trace := by
    rw [h.trace, tick_trace, tick_ST, countDown_toNat, List.append_assoc]
    have hone : s.ST = 1 ↔ s.ST.toNat = 1 := by bv_omega
    by_cases hST : s.ST.toNat = 1
    · rw [if_pos (hone.mpr hST), if_neg (by omega), if_pos (by omega), List.append_nil]
    · have hiff : (0 < s.ST.toNat - 1 ∧ s.ST.toNat - 1 ≤ n) ↔ (0 < s.ST.toNat ∧ s.ST.toNat ≤ n + 1) := by omega
      rw [if_neg (mt hone.mp hST), List.nil_append]
      simp only [hiff]

end TimersRunDown

/-- The operations still to come are no part of a frame, when both sides have the same. -/
theorem Frame.withHostOps {c : Changes} {s t : State} (h : Frame c s t) (ops : List HostOp) :
    Frame c { s with hostOps := ops } { t with hostOps := ops } :=
  { h with session := ⟨h.session.1, rfl⟩ }

/-- A run through operations that are each a Tick, or a Cycle while a key is awaited: the timers run down with the Ticks, and
nothing else changes (R62, R113, R114). -/
theorem run_waits {s : State} {waits rest : List HostOp}
    (hwaits : ∀ op ∈ waits, op = .tick ∨ (op = .cycle ∧ ∃ x, s.mode = .awaitingKey x))
    (hops : s.hostOps = waits ++ rest) :
    ∃ t, (∀ k, Sys2Proof.core.run (waits.length + k) s = Sys2Proof.core.run k t) ∧
      TimersRunDown (waits.count .tick) s t ∧
      Frame { DT := true, ST := true, trace := true } { s with hostOps := rest } t := by
  induction waits generalizing s with
  | nil =>
    have hrest : s.hostOps = rest := hops
    subst hrest
    exact ⟨s, fun k => by rw [List.length_nil, Nat.zero_add], TimersRunDown.zero s, Frame.refl _ s⟩
  | cons op waits ih =>
    have hop : nextOp s = op := by rw [nextOp, hops]; rfl
    have htail : s.afterTaking.hostOps = waits ++ rest := by rw [State.afterTaking_hostOps, hops]; rfl
    have hlen : ∀ k, (op :: waits).length + k = (waits.length + k) + 1 := fun k => Nat.succ_add _ k
    have hlater := fun op' hop' => hwaits op' (List.mem_cons_of_mem op hop')
    obtain rfl | ⟨rfl, x, hm⟩ := hwaits op List.mem_cons_self
    · obtain ⟨t, hrun, htimers, hframe⟩ := ih (s := tick s.afterTaking)
        (by rw [tick_mode]; exact hlater) ((tick_frame _).session.2.trans htail)
      refine ⟨t, fun k => ?_, ?_, ((tick_frame s.afterTaking).withHostOps rest).trans hframe⟩
      · rw [hlen, core_run_next (step_of_tick hop), hrun]
      · obtain ⟨hDT, hST, htrace⟩ := htimers.succ
        rw [List.count_cons_self]
        exact ⟨hDT, hST, htrace⟩
    · obtain ⟨t, hrun, ⟨hDT, hST, htrace⟩, hframe⟩ := ih (s := s.afterTaking) hlater htail
      refine ⟨t, fun k => ?_, ?_, hframe⟩
      · rw [hlen, core_run_next ((step_of_cycle hop).trans (cycle_awaitingKey (s := s.afterTaking) hm)), hrun]
      · rw [List.count_cons_of_ne (by decide)]
        exact ⟨hDT, hST, htrace⟩

/-- Settles O35: the waits are n Ticks, in any mode. -/
theorem ticksRunTheTimersDown : Obligations.TicksRunTheTimersDown := fun s n rest hops => by
  obtain ⟨t, hrun, ⟨hDT, hST, htrace⟩, hframe⟩ :=
    run_waits (fun op hop => .inl (List.eq_of_mem_replicate hop)) hops
  rw [List.count_replicate_self] at hDT hST htrace
  refine ⟨t, ?_, hDT, hST, htrace, hframe⟩
  have hend := hrun 0
  rwa [List.length_replicate] at hend

/-- A release and the Cycle that resolves it: the key is in its register, and nothing else changed (R63, R116). -/
theorem run_release {s : State} {x k : Nibble} {rest : List HostOp} (hm : s.mode = .awaitingKey x)
    (hops : s.hostOps = .keyRelease k :: .cycle :: rest) :
    Sys2Proof.core.run 2 s = .next (({ s with hostOps := rest }.writeV x (k.setWidth 8)).setMode .running) := by
  have hrelease : step s = .next (s.afterTaking.setMode (.keyResolved x k)) :=
    (keyReleaseIsRecordedOnce s k (by rw [nextOp, hops]; rfl)).1 x hm
  have hcycle : nextOp (s.afterTaking.setMode (.keyResolved x k)) = .cycle := by
    rw [nextOp, State.setMode_hostOps, State.afterTaking_hostOps, hops]
    rfl
  have hrest : s.hostOps.tail.tail = rest := by rw [hops]; rfl
  rw [core_run_next hrelease, core_run_next ((step_of_cycle hcycle).trans (cycle_keyResolved rfl)), core_run_zero, ← hrest]
  rfl

/-- Settles O34: the waits run the timers down in mode AwaitingKey, and the release ends them. -/
theorem keyWaitEndsWithTheRelease : Obligations.KeyWaitEndsWithTheRelease := fun s x k waits rest hm hwaits hops => by
  obtain ⟨t, hrun, ⟨hDT, hST, htrace⟩, hframe⟩ :=
    run_waits (fun op hop => (hwaits op hop).symm.imp_right fun hc => ⟨hc, x, hm⟩) hops
  have hend := (hrun 2).trans (run_release ((hframe.mode rfl).trans hm) hframe.session.2)
  refine ⟨_, hend, ?_, rfl, hDT, hST, htrace, ?_⟩
  · rw [State.setMode_readV, State.readV_writeV_self, setWidth_nibble_toNat]
  · have hwaited : Frame { regs := [x], mode := true, DT := true, ST := true, trace := true } { s with hostOps := rest }
        { t with hostOps := rest } :=
      { hframe.withHostOps rest with regs := fun r _ => hframe.regs r (by simp), mode := fun hc => nomatch hc }
    have hmode : ∀ u : State, Frame { regs := [x], mode := true, DT := true, ST := true, trace := true } u
        (u.setMode .running) := fun u => by constructor <;> simp
    exact (hwaited.trans (State.writeV_frame _ _ (by simp))).trans (hmode _)

/-! ### Nothing loaded -/

/-- The state of a session without a program, with the `pc` at `p` (R129). -/
def unloaded (p : Nat) (phase : Session) : State :=
  { State.reset with pc := BitVec.ofNat 16 p, session := phase }

/-- Past FONT memory without a program holds zeros, and 0000 is no instruction: a Cycle only moves `pc` (R66, R129). -/
theorem step_unloaded {p : Nat} (hp : 80 ≤ p) (hp' : p + 1 < 4096) (phase : Session) :
    step (unloaded p phase) = .next (unloaded (p + 2) .started) := by
  have hpc : (unloaded p phase).pc.toNat = p := Nat.mod_eq_of_lt (by omega)
  have hread : ∀ a, 80 ≤ a → (unloaded p phase).M.read a = 0 := fun a => Memory.unlisted_of_le
  have hzero : decode ((0 : Byte) ++ (0 : Byte)) = .invalid 0 := by decide
  rw [step_running rfl rfl (by omega), hpc, hread p hp, hread (p + 1) (by omega), hzero, exec_invalid]
  have hadvance : BitVec.ofNat 16 p + 2 = BitVec.ofNat 16 (p + 2) := BitVec.ofNat_add_ofNat p 2
  exact congrArg (fun pc => Host.Outcome.next { unloaded p .started with pc := pc }) hadvance

/-- `n` Cycles move `pc` over `n` opcodes of zeros (R129). -/
theorem run_unloaded {p n : Nat} (hp : 80 ≤ p) (hp' : p + 2 * n ≤ 4096) (k : Nat) :
    Sys2Proof.core.run (n + k) (unloaded p .started) = Sys2Proof.core.run k (unloaded (p + 2 * n) .started) := by
  induction n generalizing p with
  | zero => rw [Nat.zero_add, Nat.mul_zero, Nat.add_zero]
  | succ n ih =>
    rw [Nat.succ_add, core_run_next (step_unloaded hp (by omega) .started), ih (by omega) (by omega)]
    congr 2
    omega

/-- The first `n + 1` Cycles from reset (R127, R129). -/
theorem run_reset {n : Nat} (hn : 0x200 + 2 * (n + 1) ≤ 4096) (k : Nat) :
    Sys2Proof.core.run (n + 1 + k) State.reset = Sys2Proof.core.run k (unloaded (0x200 + 2 * (n + 1)) .started) := by
  have hfirst : step State.reset = .next (unloaded 0x202 .started) := step_unloaded (p := 0x200) (by omega) (by omega) .built
  have hcount : n + 1 + k = n + k + 1 := by omega
  have hpc : 0x202 + 2 * n = 0x200 + 2 * (n + 1) := by omega
  rw [hcount, core_run_next hfirst, run_unloaded (by omega) (by omega), hpc]

/-- R106: with no operation listed, Cycles change nothing in Halted. -/
theorem run_halted {s : State} {rec : HaltRecord} (hm : s.mode = .halted rec) (hops : s.hostOps = []) (k : Nat) :
    Sys2Proof.core.run k s = .next s := by
  have htaken : s.afterTaking = s := by
    rw [State.afterTaking, hops]
    exact congrArg (fun ops => { s with hostOps := ops }) hops.symm
  have hstep : step s = .next s := by
    rw [step_of_cycle (by rw [nextOp, hops]; rfl), htaken, cycle_halted hm]
  induction k with
  | zero => rfl
  | succ k ih => rw [core_run_next hstep, ih]

/-- Settles O33: 1792 opcodes of zeros from 0x200, then the fetch at 0x1000 halts. -/
theorem runWithNothingLoaded : Obligations.RunWithNothingLoaded := by
  refine ⟨fun k hk => ?_, fun k hk => ?_⟩
  · cases k with
    | zero => rfl
    | succ n => exact run_reset (n := n) (by omega) 0
  · obtain ⟨m, rfl⟩ : ∃ m, k = 1791 + 1 + (m + 1) := ⟨k - 1793, by omega⟩
    have hhalt := fetchOutsideMemoryHalts (unloaded 0x1000 .started) rfl rfl (by decide)
    rw [run_reset (by decide), core_run_next hhalt]
    exact run_halted rfl rfl m

end Sys2Proof.Machine
end

section
/-! PROOFS. The Display's blit (60_exceptions.md R121, 44_timer_key_display.md R97): a draw toggles exactly the pixels the sprite
sets and answers whether one of them was on. Each part of a draw toggles a set of pixels, and parts that toggle different pixels
toggle their union. -/

namespace Sys2Proof.Machine

/-! ### Pixels -/

namespace FrameBuffer

/-- R25: a pixel set, and every other pixel. -/
theorem pixel_setPixel (fb : FrameBuffer) (row r : Fin 32) (col c : Fin 64) (v : Bool) :
    (fb.setPixel row col v).pixel r c = if r = row ∧ c = col then v else fb.pixel r c := by
  simp only [pixel, setPixel, Vector.get_eq_getElem, Vector.getElem_set]
  by_cases hr : r = row
  · subst hr
    by_cases hc : c = col
    · subst hc
      simp
    · simp [hc, Ne.symm (Fin.val_ne_of_ne hc)]
  · simp [hr, Ne.symm (Fin.val_ne_of_ne hr)]

/-- Framebuffers with the same pixels are the same. -/
theorem ext_pixel {fb fb' : FrameBuffer} (h : ∀ r c, fb.pixel r c = fb'.pixel r c) : fb = fb' :=
  Vector.ext fun r hr => Vector.ext fun c hc => h ⟨r, hr⟩ ⟨c, hc⟩

end FrameBuffer

/-! ### Toggling a set of pixels -/

/-- From `k`, `k'` toggled the pixels of `S`, each once, and collided exactly when one of them was on (R121). -/
structure Canvas.Toggled (S : Fin 32 → Fin 64 → Prop) (k k' : Canvas) : Prop where
  pixel : ∀ r c, k'.fb.pixel r c = true ↔ ¬ (k.fb.pixel r c = true ↔ S r c)
  collision : k'.collision = true ↔ k.collision = true ∨ ∃ r c, k.fb.pixel r c = true ∧ S r c

namespace Canvas.Toggled
variable {S T : Fin 32 → Fin 64 → Prop} {k k' k'' : Canvas}

/-- Nothing drawn. -/
theorem of_none (hS : ∀ r c, ¬ S r c) : Toggled S k k where
  pixel r c := by simp [hS r c]
  collision := by simp [hS]

/-- One pixel drawn. -/
theorem toggle (k : Canvas) (row : Fin 32) (col : Fin 64) :
    Toggled (fun r c => r = row ∧ c = col) k (k.toggle row col) where
  pixel r c := by
    rw [Canvas.toggle, FrameBuffer.pixel_setPixel]
    by_cases h : r = row ∧ c = col
    · obtain ⟨rfl, rfl⟩ := h
      simp
    · simp [h]
  collision := by
    rw [Canvas.toggle, Bool.or_eq_true]
    refine or_congr_right ⟨fun h => ⟨row, col, h, rfl, rfl⟩, ?_⟩
    rintro ⟨r, c, h, rfl, rfl⟩
    exact h

/-- Two parts that toggle different pixels toggle their union: the second finds its pixels as they were. -/
theorem union (h : Toggled S k k') (h' : Toggled T k' k'') (hdisjoint : ∀ r c, S r c → ¬ T r c) :
    Toggled (fun r c => S r c ∨ T r c) k k'' where
  pixel r c := by
    have hd := hdisjoint r c
    rw [h'.pixel, h.pixel]
    tauto
  collision := by
    have hkept : ∀ r c, (k'.fb.pixel r c = true ∧ T r c) ↔ (k.fb.pixel r c = true ∧ T r c) := fun r c => by
      have hd := hdisjoint r c
      rw [h.pixel]
      tauto
    simp only [h'.collision, h.collision, hkept, and_or_left, exists_or, or_assoc]

theorem congr (h : Toggled S k k') (hST : ∀ r c, T r c ↔ S r c) : Toggled T k k' where
  pixel r c := by rw [h.pixel, hST]
  collision := by simp only [h.collision, hST]

end Canvas.Toggled

/-! ### The blit -/

/-- The columns the first `n` bits of a byte land on, from column `x` (R121). -/
def bitsSet (x : Nat) (byte : Byte) (n : Nat) (col : Fin 64) : Prop :=
  ∃ b, b < n ∧ byte.getLsbD (7 - b) = true ∧ col.val = (x + b) % 64

/-- The pixels of a sprite drawn at any column and row number (R121). -/
def rowsSet (x y : Nat) (sprite : List Byte) (row : Fin 32) (col : Fin 64) : Prop :=
  ∃ r b : Nat, ∃ h : r < sprite.length, b < 8 ∧ (sprite[r]).getLsbD (7 - b) = true ∧
    row.val = (y + r) % 32 ∧ col.val = (x + b) % 64

theorem spriteSets_iff {x y : Byte} {sprite : List Byte} {row : Fin 32} {col : Fin 64} :
    spriteSets x y sprite row col ↔ rowsSet x.toNat y.toNat sprite row col := Iff.rfl

/-- The first `n + 1` bits are the first `n` and one more. -/
theorem bitsSet_succ (x : Nat) (byte : Byte) (n : Nat) (col : Fin 64) :
    bitsSet x byte (n + 1) col ↔ bitsSet x byte n col ∨ (byte.getLsbD (7 - n) = true ∧ col.val = (x + n) % 64) := by
  constructor
  · rintro ⟨b, hb, hbit, hcol⟩
    obtain hlt | rfl := Nat.lt_succ_iff_lt_or_eq.mp hb
    · exact .inl ⟨b, hlt, hbit, hcol⟩
    · exact .inr ⟨hbit, hcol⟩
  · rintro (⟨b, hb, hbit, hcol⟩ | ⟨hbit, hcol⟩)
    · exact ⟨b, Nat.lt_succ_of_lt hb, hbit, hcol⟩
    · exact ⟨n, Nat.lt_succ_self n, hbit, hcol⟩

/-- A sprite's pixels are its first row's and those of the rest, one row on. -/
theorem rowsSet_cons (x y : Nat) (byte : Byte) (rest : List Byte) (row : Fin 32) (col : Fin 64) :
    rowsSet x y (byte :: rest) row col ↔
      (row = Fin.ofNat 32 y ∧ bitsSet x byte 8 col) ∨ rowsSet x (y + 1) rest row col := by
  constructor
  · rintro ⟨r, b, hr, hb, hbit, hrow, hcol⟩
    cases r with
    | zero => exact .inl ⟨Fin.ext hrow, b, hb, hbit, hcol⟩
    | succ r => exact .inr ⟨r, b, Nat.lt_of_succ_lt_succ hr, hb, hbit, by rw [hrow]; congr 1; omega, hcol⟩
  · rintro (⟨rfl, b, hb, hbit, hcol⟩ | ⟨r, b, hr, hb, hbit, hrow, hcol⟩)
    · exact ⟨0, b, Nat.succ_pos _, hb, hbit, rfl, hcol⟩
    · exact ⟨r + 1, b, Nat.succ_lt_succ hr, hb, hbit, by rw [hrow]; congr 1; omega, hcol⟩

/-- One row of a sprite: at most eight bits land on different columns. -/
theorem drawBits_toggled (k : Canvas) (row : Fin 32) (x : Nat) (byte : Byte) {n : Nat} (hn : n ≤ 8) :
    Canvas.Toggled (fun r c => r = row ∧ bitsSet x byte n c) k (k.drawBits row x byte n) := by
  induction n with
  | zero => exact .of_none fun r c h => by obtain ⟨-, b, hb, -⟩ := h; omega
  | succ n ih =>
    have hprev := ih (by omega)
    rw [Canvas.drawBits]
    by_cases hbit : byte.getLsbD (7 - n) = true
    · rw [if_pos hbit]
      refine (hprev.union (.toggle _ row (Fin.ofNat 64 (x + n))) fun r c h h' => ?_).congr fun r c => ?_
      · obtain ⟨-, b, hb, -, hcol⟩ := h
        have hcol' : c.val = (x + n) % 64 := congrArg Fin.val h'.2
        omega
      · rw [bitsSet_succ, and_or_left, Fin.ext_iff (a := c)]
        simp [hbit]
    · rw [if_neg hbit]
      exact hprev.congr fun r c => by simp [bitsSet_succ, hbit]

/-- All rows of a sprite: at most 32 land on different rows. -/
theorem drawRows_toggled (k : Canvas) (x y : Nat) {sprite : List Byte} (hlen : sprite.length ≤ 32) :
    Canvas.Toggled (rowsSet x y sprite) k (k.drawRows x y sprite) := by
  induction sprite generalizing k y with
  | nil => exact .of_none fun r c h => by obtain ⟨_, _, hr, -⟩ := h; exact absurd hr (Nat.not_lt_zero _)
  | cons byte rest ih =>
    rw [List.length_cons] at hlen
    refine ((drawBits_toggled k (Fin.ofNat 32 y) x byte (le_refl 8)).union (ih _ (y + 1) (by omega))
      fun r c h h' => ?_).congr (rowsSet_cons x y byte rest)
    obtain ⟨r', b, hr', -, -, hrow, -⟩ := h'
    have hrow' : r.val = y % 32 := congrArg Fin.val h.1
    omega

/-- R121: a draw toggles the pixels the sprite sets. -/
theorem draw_toggled (fb : FrameBuffer) (x y : Byte) {sprite : List Byte} (hlen : sprite.length ≤ 15) :
    Canvas.Toggled (spriteSets x y sprite) { fb := fb, collision := false } (fb.draw x y sprite) :=
  (drawRows_toggled _ x.toNat y.toNat (by omega)).congr fun _ _ => spriteSets_iff

/-- R97: a draw collides exactly when a pixel the sprite sets was on. -/
theorem draw_collision_iff (fb : FrameBuffer) (x y : Byte) {sprite : List Byte} (hlen : sprite.length ≤ 15) :
    (fb.draw x y sprite).collision = true ↔ ∃ row col, fb.pixel row col = true ∧ spriteSets x y sprite row col := by
  simpa using (draw_toggled fb x y hlen).collision

/-! ### A sprite drawn twice -/

/-- A byte is not 0 exactly when one of its eight bits is set. -/
theorem ne_zero_iff_getLsbD (v : Byte) : v ≠ 0 ↔ ∃ b, b < 8 ∧ v.getLsbD (7 - b) = true := by
  constructor
  · intro hv
    by_contra hnone
    refine hv (BitVec.eq_of_getLsbD_eq fun i hi => ?_)
    have hbit : v.getLsbD (7 - (7 - i)) = false := Bool.eq_false_iff.mpr fun h => hnone ⟨7 - i, by omega, h⟩
    rw [show 7 - (7 - i) = i by omega] at hbit
    simpa using hbit
  · rintro ⟨b, -, hbit⟩ rfl
    simp at hbit

/-- A sprite sets a pixel exactly when it has a set bit, wherever it is drawn. -/
theorem exists_spriteSets_iff (x y : Byte) (sprite : List Byte) :
    (∃ row col, spriteSets x y sprite row col) ↔ ∃ byte ∈ sprite, byte ≠ 0 := by
  constructor
  · rintro ⟨row, col, r, b, hr, hb, hbit, -⟩
    exact ⟨sprite[r], List.getElem_mem hr, (ne_zero_iff_getLsbD _).mpr ⟨b, hb, hbit⟩⟩
  · rintro ⟨byte, hmem, hbyte⟩
    obtain ⟨r, hr, rfl⟩ := List.getElem_of_mem hmem
    obtain ⟨b, hb, hbit⟩ := (ne_zero_iff_getLsbD _).mp hbyte
    exact ⟨Fin.ofNat 32 (y.toNat + r), Fin.ofNat 64 (x.toNat + b), r, b, hr, hb, hbit, rfl, rfl⟩

/-- Settles O32: what is toggled twice is as before, and on a cleared display the first draw turns on what the sprite sets. -/
theorem spriteDrawnTwiceIsErased : Obligations.SpriteDrawnTwiceIsErased := fun fb x y sprite hlen => by
  have hfirst := fun fb : FrameBuffer => (draw_toggled fb x y hlen).pixel
  refine ⟨FrameBuffer.ext_pixel fun r c => Bool.eq_iff_iff.mpr ?_, ?_, ?_⟩
  · rw [hfirst, hfirst]
    tauto
  · rw [draw_collision_iff _ x y hlen, ← exists_spriteSets_iff x y]
    simp [hfirst]
  · rw [Bool.eq_false_iff, Ne, draw_collision_iff _ x y hlen]
    simp

/-! ### DRW -/

/-- R97: the column is Vx modulo 64. -/
theorem spriteColumn_eq (v : Byte) : spriteColumn v = BitVec.ofNat 8 (v.toNat % 64) := by
  have hlt : v.toNat % 64 < 2 ^ 8 := by omega
  apply BitVec.eq_of_toNat_eq
  rw [spriteColumn, BitVec.toNat_umod, BitVec.toNat_ofNat, Nat.mod_eq_of_lt hlt]
  rfl

/-- R97: the row is Vy modulo 32. -/
theorem spriteRow_eq (v : Byte) : spriteRow v = BitVec.ofNat 8 (v.toNat % 32) := by
  have hlt : v.toNat % 32 < 2 ^ 8 := by omega
  apply BitVec.eq_of_toNat_eq
  rw [spriteRow, BitVec.toNat_umod, BitVec.toNat_ofNat, Nat.mod_eq_of_lt hlt]
  rfl

/-- Settles O53: the sprite is the n bytes at I, the blit toggles its pixels, and the check of n bytes is the error of R104. -/
theorem drawXorsTheSprite : Obligations.DrawXorsTheSprite := fun x y n s => by
  refine ⟨fun hin => ?_, fun hn hI => exec_of_error ?_⟩
  · have hrange : n.toNat = 0 ∨ s.I.toNat + n.toNat ≤ 4096 := hin.imp_left (congrArg BitVec.toNat)
    have hexec := exec_drw (s := s) (x := x) (y := y) (n := n) (by rw [errorOf_drw, rangeError, if_pos hrange])
    have hlen : (s.spriteAt n).length = n.toNat := Memory.readList_length _ _ _
    have hlen15 : (s.spriteAt n).length ≤ 15 := by omega
    rw [spriteColumn_eq, spriteRow_eq] at hexec
    refine ⟨_, _, s.spriteAt n, hexec, hlen, fun j hj => Memory.readList_getElem _ _ _ (hlen ▸ hj),
      (draw_toggled s.FB _ _ hlen15).pixel, draw_collision_iff s.FB _ _ hlen15, ?_, rfl, s.drawSprite_frame _ _ _⟩
    exact State.readV_writeV_self _ _ _
  · have hpos : ¬ (n.toNat = 0 ∨ s.I.toNat + n.toNat ≤ 4096) := fun h => by
      obtain h0 | hle := h
      · exact hn (BitVec.eq_of_toNat_eq h0)
      · omega
    rw [errorOf_drw, rangeError, if_neg hpos]

end Sys2Proof.Machine
end
